-- ==== Sys2Proof/Word.lean ====
section
/-! DEFINITION. The two word types of the GFRB unit: an 8-bit codeword (R13) and a 32-bit bus word (R7 BUS_WIDTH). -/

namespace Sys2Proof

/-- A codeword, "byte (0–255)" (R13): a buffer entry or an element of GF(256). -/
abbrev Byte := BitVec 8

/-- The unit's 32-bit data-bus word (R7 BUS_WIDTH, R9). -/
abbrev Word := BitVec 32

end Sys2Proof
end

