-- ==== Sys2Proof/Syntax.lean ====
section
/-! DEFINITION. The commands of the GFRB unit (R12, R83): one constructor per row of spec/opcode_table.json. A command word
has no operand field (R81), so no constructor has an argument. -/

namespace Sys2Proof

/-- The nine commands of the opcode map R83. -/
inductive Instr where
  | nop      -- 0x0 NOP, R106
  | gfmul    -- 0x1 GFMUL, R123
  | gf2mul   -- 0x2 GF2MUL, R124
  | gflog    -- 0x3 GFLOG, R125
  | gfexp    -- 0x4 GFEXP, R126
  | rsgen    -- 0x5 RSGEN, R141
  | rsrem    -- 0x6 RSREM, R146
  | bchfmt   -- 0x7 BCHFMT, R162
  | bchver   -- 0x8 BCHVER, R164
  deriving DecidableEq, Repr

end Sys2Proof
end

