-- ==== Sys2Proof/Decode.lean ====
section
/-! DEFINITION. Decoding and encoding of command words (R80 to R85). -/

namespace Sys2Proof

/-- Why a word is no command (R84): some RSV bit w[31:4] is 1, or OP is in 0x9..0xF. Both are the spec's ILLEGAL. -/
inductive DecodeReject where
  | rsvNonzero
  | reservedOp
  deriving DecidableEq, Repr

/-- The OP field, bits 3:0 (R80). -/
def opField (w : Word) : BitVec 4 := w.extractLsb' 0 4

/-- The RSV field, bits 31:4 (R80). -/
def rsvField (w : Word) : BitVec 28 := w.extractLsb' 4 28

/-- The opcode map of R83 on the OP field alone. -/
def decodeOp (op : Nat) : Except DecodeReject Instr :=
  match op with
  | 0x0 => .ok .nop
  | 0x1 => .ok .gfmul
  | 0x2 => .ok .gf2mul
  | 0x3 => .ok .gflog
  | 0x4 => .ok .gfexp
  | 0x5 => .ok .rsgen
  | 0x6 => .ok .rsrem
  | 0x7 => .ok .bchfmt
  | 0x8 => .ok .bchver
  | _   => .error .reservedOp

/-- `decode(w)` of R85, total on every 32-bit value; ILLEGAL is a rejection that says which half of R84 it falls under. -/
def decode (w : Word) : Except DecodeReject Instr :=
  if rsvField w = 0#28 then decodeOp (opField w).toNat else .error .rsvNonzero

/-- The OP value of a command (R83). -/
def opcode : Instr → BitVec 4
  | .nop    => 0x0#4
  | .gfmul  => 0x1#4
  | .gf2mul => 0x2#4
  | .gflog  => 0x3#4
  | .gfexp  => 0x4#4
  | .rsgen  => 0x5#4
  | .rsrem  => 0x6#4
  | .bchfmt => 0x7#4
  | .bchver => 0x8#4

/-- The command word of a command: RSV = 0 above OP (R80, R83). -/
def encode (i : Instr) : Word := 0#28 ++ opcode i

/-- The command the decoder reads from an instruction whose bits are `w`, of which the opcode table gives `nbits`. A command
is one 32-bit word (R81), so a value with bits above bit 31 is no command. -/
def decodeTableWord (nbits w : Nat) : Option Instr :=
  let v := w % 2 ^ nbits
  if v < 2 ^ 32 then
    match decode (BitVec.ofNat 32 v) with
    | .ok i => some i
    | .error _ => none
  else none

end Sys2Proof
end

