-- ==== Sys2Proof/Config.lean ====
section
/-! DEFINITION. What the spec leaves open: the free values (draws under no law) and the OPEN platform parameters. None has
a body, so no proof can learn which value it is. The numbers the spec FIXES are in Sys2Proof/Machine/Params.lean. -/

namespace Sys2Proof.Config

/-- The draws of the spec (U1, U2, U14): the n-th unspecified value of a run, "under no law" (R45, R56). The step reads it
at the counter `Schedule.draws` and advances the counter. Free value, log entry 1. -/
opaque freeValue : Nat → Word

/-- LATENCY (R7, U4): how many host steps may fall between an issue and its completion when the schedule in State names
none. "A model takes LATENCY as an unconstrained argument." Free value, log entry 3. -/
opaque latency : Nat → Nat

/-- The content of LOG ROM slot 0 (U7): any value, "never observable" (R121). Free value, log entry 5. -/
opaque logSlot0 : Byte

/-- GFRB_BASE / 4096: the 4 KiB-aligned base of the unit's window is the platform's (R50, U5). Log entry 7. -/
opaque gfrbPage : Nat

/-- GFRB_IRQ_LINE (R187, U6): the platform line that irq drives. Log entry 7. -/
opaque gfrbIrqLine : Nat

/-- What a host temporary holds before the host program first writes it; the spec says nothing about it (R87). Free value,
log entry 9. -/
opaque hostTempInit : Nat → Word

end Sys2Proof.Config
end

