-- ==== Sys2Proof/Machine/HostSyntax.lean ====
section
/-! DEFINITION. What the host agent (R12) can do at the unit's port: the locations of the window (R51), bus accesses
(R52, R53) and the statements of a host program (R86, R87). -/

namespace Sys2Proof.Machine

/-- A location of the address map R51. The reserved words of the map are no location. -/
inductive Loc where
  | id | cap | cmd | status | irqEn | opa | opb | ecc | len | result | rlen | genDeg | remCnt
  | dbuf (i : Fin 256)
  | gbuf (j : Fin 31)
  | rbuf (k : Fin 30)
  deriving DecidableEq, Repr

/-- The two kinds of bus access (R50). -/
inductive BusOp where
  | read
  | write (w : Word)
  deriving DecidableEq, Repr

/-- A bus access as it reaches the unit's port: its byte offset in the window (R50), its byte-lane enables, and how many
words it has after the first (a burst when not 0). `MemRead(addr, 4)` and `MemWrite(addr, 4, v)` are the ones R52 serves. -/
structure Access where
  offset : BitVec 12
  lanes  : BitVec 4
  more   : Nat
  op     : BusOp
  deriving DecidableEq, Repr

/-- R52: an aligned word with all four byte lanes enabled, and no burst (R53). -/
def Access.served (a : Access) : Bool :=
  a.offset.toNat % 4 == 0 && a.lanes == 0b1111#4 && a.more == 0

/-- A statement of a host program (R86, R87). A host temporary and a label are numbered. `raw` is any access the bus can
carry, for the accesses R53 answers with a bus error and the reserved offsets R55, which `WR` and `RD` cannot name. `rst`
is the platform asserting the reset input between two host accesses (R210). -/
inductive Stmt where
  | wr (l : Loc) (v : Word)
  | rd (l : Loc) (t : Nat)
  | issue (i : Instr)
  | issueWord (w : Word)
  | label (n : Nat)
  | bne (t : Nat) (mask value : Word) (n : Nat)
  | raw (a : Access) (t : Nat)
  | rst
  deriving DecidableEq, Repr

/-- The labels a program names statements with, in order (R87). -/
def labelsOf : List Stmt → List Nat
  | [] => []
  | .label n :: rest => n :: labelsOf rest
  | _ :: rest => labelsOf rest

/-- The labels a program branches to, in order (R87). -/
def targetsOf : List Stmt → List Nat
  | [] => []
  | .bne _ _ _ n :: rest => n :: targetsOf rest
  | _ :: rest => targetsOf rest

/-- Every branch of the program goes to a label it has. -/
def labelsDefined (prog : List Stmt) : Bool :=
  (targetsOf prog).all fun n => (labelsOf prog).contains n

end Sys2Proof.Machine
end

