-- ==== Sys2Proof/Machine/State.lean ====
section
/-! DEFINITION. The state of the machine: the unit's architectural state exactly as R20 lists it, the host agent (R12), and
the model's own scheduling data. The constants ID, CAP (R22, R23) and the ROMs EXP, LOG (R40) never change and are
definitions; CMD is not state (R45); irq is a function of the state "at all times" (R44). -/

namespace Sys2Proof.Machine

/-- The error codes of STATUS.ERRCODE (R181). Codes 8..15 are "never produced" (U10), so they are no constructor. -/
inductive ErrCode where
  | noError
  | illegalOp
  | logZero
  | eccRange
  | lenRange
  | noGen
  | fmtRange
  | verRange
  deriving DecidableEq, Repr

/-- The fields of STATUS (R25). -/
structure Status where
  busy    : Bool
  done    : Bool
  err     : Bool
  wbusy   : Bool
  errcode : ErrCode
  deriving DecidableEq, Repr

/-- The operand state (R13): OPA, OPB, ECC, LEN (R28 to R31) and the data-block buffer DBUF (R37). -/
structure Operands where
  opa  : Byte
  opb  : Byte
  ecc  : Byte
  len  : BitVec 9
  dbuf : Vector Byte 256
  deriving DecidableEq, Repr

/-- The result state (R32): RESULT, RLEN, GEN_DEG, REM_CNT, GBUF and RBUF (R33 to R36, R38, R39). -/
structure Results where
  result : BitVec 18
  rlen   : BitVec 5
  genDeg : Byte
  remCnt : Byte
  gbuf   : Vector Byte 31
  rbuf   : Vector Byte 30
  deriving DecidableEq, Repr

/-- What the unit's port answers an access with: a write's acknowledgement, a read's data, or the bus error response
(R53), which carries no data. -/
inductive BusResponse where
  | ack
  | data (w : Word)
  | busError (offset : BitVec 12)
  deriving DecidableEq, Repr

/-- The host agent (R12): the program it executes in order (R87), the statement it is at, its temporaries (a list by
strictly rising number; an unlisted one was never written), and the response to its last access. -/
structure HostAgent where
  prog  : List Stmt
  pc    : Nat
  temps : List (Nat × Word)
  resp  : Option BusResponse
  deriving DecidableEq, Repr

/-- The model's own scheduling data: how many draws were taken, how many host steps may still fall before the command in
flight completes, and the delays of the issues to come (R7 LATENCY, R102, U4, U17). -/
structure Schedule where
  draws   : Nat
  wait    : Nat
  latency : List Nat
  deriving DecidableEq, Repr

/-- The whole machine. `ie` is IRQ_EN.IE (R27); `lcmd` is the hidden command latch LCMD (R41). -/
structure State where
  status   : Status
  ie       : Bool
  operands : Operands
  results  : Results
  lcmd     : Word
  sched    : Schedule
  host     : HostAgent
  deriving DecidableEq, Repr

/-- Why the machine stops. -/
inductive Fault where
  /-- Raised by the host agent alone, when a BNE whose branch is taken names a label its program has no statement for
  (R87 gives such a program no meaning). Safe: the spec's programs have every label they branch to. The unit itself never
  raises a fault: its errors are completions (R180). -/
  | undefinedLabel (n : Nat)
  deriving DecidableEq, Repr

/-- Why an instruction has no meaning. -/
inductive Refusal where
  /-- Raised by an arm of exec whose command has no meaning yet; no arm does. Safe. -/
  | notModelled (mnemonic : String)
  deriving DecidableEq, Repr

/-- `n` buffer entries after reset: entry i is the (base + i)-th draw, "any value in 0..255, under no law" (R45, U1). -/
def drawBuffer (base n : Nat) : Vector Byte n :=
  Vector.ofFn fun i => (Config.freeValue (base + i.val)).setWidth 8

/-- How many draws one reset takes: 256 + 31 + 30 buffer entries (U1) and LCMD (U14). -/
def resetDraws : Nat := 318

/-- STATUS after reset: 0 (R45). -/
def Status.reset : Status := { busy := false, done := false, err := false, wbusy := false, errcode := .noError }

/-- The operand state after reset: the registers 0, DBUF unspecified (R45). -/
def Operands.reset (draws : Nat) : Operands :=
  { opa := 0#8, opb := 0#8, ecc := 0#8, len := 0#9, dbuf := drawBuffer draws 256 }

/-- The result state after reset: the registers 0, GBUF and RBUF unspecified (R45, R213). -/
def Results.reset (draws : Nat) : Results :=
  { result := 0#18, rlen := 0#5, genDeg := 0#8, remCnt := 0#8,
    gbuf := drawBuffer (draws + 256) 31, rbuf := drawBuffer (draws + 287) 30 }

/-- The unit after `rst` (R210, R45), the draws taken from the counter on; the schedule of later issues and the host agent
are not the unit's and stay. -/
def State.afterReset (sched : Schedule) (host : HostAgent) : State :=
  { status := Status.reset, ie := false, operands := Operands.reset sched.draws, results := Results.reset sched.draws,
    lcmd := Config.freeValue (sched.draws + 317),
    sched := { draws := sched.draws + resetDraws, wait := 0, latency := sched.latency }, host := host }

/-- The machine right after power-on reset (R45), with a host that has no program (log entry 8). -/
def State.reset : State :=
  State.afterReset { draws := 0, wait := 0, latency := [] } { prog := [], pc := 0, temps := [], resp := none }

end Sys2Proof.Machine
end

