-- ==== Sys2Proof/Machine/Flags.lean ====
section
/-! DEFINITION. STATUS: its layout (R25), the writes of its fields that R42 lists, and the interrupt output (R44). -/

namespace Sys2Proof.Machine

/-- The ERRCODE of an error (R181). -/
def ErrCode.bits : ErrCode → BitVec 4
  | .noError   => 0#4
  | .illegalOp => 1#4
  | .logZero   => 2#4
  | .eccRange  => 3#4
  | .lenRange  => 4#4
  | .noGen     => 5#4
  | .fmtRange  => 6#4
  | .verRange  => 7#4

/-- A flag as a one-bit field. -/
def flagBit (b : Bool) : BitVec 1 := BitVec.ofBool b

/-- The STATUS word (R25): ERRCODE in bits 11:8, WBUSY 3, ERR 2, DONE 1, BUSY 0, every other bit 0. -/
def Status.word (st : Status) : Word :=
  0#20 ++ st.errcode.bits ++ 0#4 ++ flagBit st.wbusy ++ flagBit st.err ++ flagBit st.done ++ flagBit st.busy

/-- The flags an issue writes: BUSY set; DONE, ERR and ERRCODE cleared; WBUSY kept (R100, R42). -/
def Status.issue (st : Status) : Status := { st with busy := true, done := false, err := false, errcode := .noError }

/-- The flags every completion writes: BUSY cleared, DONE set (R102). -/
def Status.complete (st : Status) : Status := { st with busy := false, done := true }

/-- The flags an error adds (R184). -/
def Status.error (st : Status) (c : ErrCode) : Status := { st with err := true, errcode := c }

/-- A dropped write sets WBUSY (R58). -/
def Status.drop (st : Status) : Status := { st with wbusy := true }

/-- A host write of w to STATUS (R26): bit 1 clears DONE, ERR and ERRCODE; bit 3 clears WBUSY; other bits are ignored. -/
def Status.clear (st : Status) (w : Word) : Status :=
  { busy := st.busy
    done := st.done && !w.getLsbD 1
    err := st.err && !w.getLsbD 1
    wbusy := st.wbusy && !w.getLsbD 3
    errcode := if w.getLsbD 1 then .noError else st.errcode }

/-- The level output irq = IE & DONE (R44). -/
def State.irq (s : State) : Bool := s.ie && s.status.done

/-- The platform line GFRB_IRQ_LINE carries irq; the unit drives no other line (R187, U6). -/
def State.irqAtLine (s : State) (line : Nat) : Bool := line == Config.gfrbIrqLine && s.irq

end Sys2Proof.Machine
end

