-- ==== Sys2Proof/Machine/Operands.lean ====
section
/-! DEFINITION. Operand assembly (R82), the writes of result state (R33, R34, R38, R39), and the field writes of the
operand registers (R28 to R31, R37). -/

namespace Sys2Proof.Machine

/-- The data block DBUF[0..n-1], first codeword first (R13, R37). -/
def Operands.block (o : Operands) (n : Nat) : List Byte := o.dbuf.toList.take n

/-- The generator coefficients GBUF[0..e] (R82). -/
def Results.generator (r : Results) (e : Nat) : List Byte := r.gbuf.toList.take (e + 1)

/-- The first entries of a buffer replaced by `l`, the entries past it unchanged (R38, R39, U15). -/
def writePrefix {n : Nat} (v : Vector Byte n) (l : List Byte) : Vector Byte n :=
  Vector.ofFn fun i => if h : i.val < l.length then l[i.val] else v[i.val]

/-- `zext_18` of an 8-bit value (R10, R33). -/
def zext18 (b : Byte) : BitVec 18 := b.setWidth 18

/-- RESULT <- v and RLEN <- n (R33, R34). -/
def Results.writeResult (r : Results) (v : BitVec 18) (n : BitVec 5) : Results := { r with result := v, rlen := n }

/-- GBUF[0..] <- g and GEN_DEG <- e (R35, R38). -/
def Results.writeGenerator (r : Results) (g : List Byte) (e : Byte) : Results :=
  { r with gbuf := writePrefix r.gbuf g, genDeg := e }

/-- RBUF[0..] <- d and REM_CNT <- e (R36, R39). -/
def Results.writeRemainder (r : Results) (d : List Byte) (e : Byte) : Results :=
  { r with rbuf := writePrefix r.rbuf d, remCnt := e }

/-- OPA <- w[7:0] (R28). -/
def Operands.writeOpa (o : Operands) (w : Word) : Operands := { o with opa := w.setWidth 8 }

/-- OPB <- w[7:0] (R29). -/
def Operands.writeOpb (o : Operands) (w : Word) : Operands := { o with opb := w.setWidth 8 }

/-- ECC <- w[7:0] (R30). -/
def Operands.writeEcc (o : Operands) (w : Word) : Operands := { o with ecc := w.setWidth 8 }

/-- LEN <- w[8:0] (R31). -/
def Operands.writeLen (o : Operands) (w : Word) : Operands := { o with len := w.setWidth 9 }

/-- DBUF[i] <- w[7:0] (R37). -/
def Operands.writeDbuf (o : Operands) (i : Fin 256) (w : Word) : Operands :=
  { o with dbuf := o.dbuf.set i.val (w.setWidth 8) }

end Sys2Proof.Machine
end

