-- ==== Sys2Proof/Machine/Ops.lean ====
section
/-! DEFINITION. The operations that the commands and the bus share: issue (R100), completion (R102), error completion
(R184, the unit's counterpart of taking an exception) and its acknowledgement (R186, of returning from one), the dropped
write (R58), and reset (R210). -/

namespace Sys2Proof.Machine

/-- The outcome of a step of this machine. -/
abbrev Out := Host.Outcome State Fault Refusal

/-- A command that ends OK: its writes are applied all at once, BUSY clears, DONE sets (R102). -/
def State.completeOk (s : State) (r : Results) : State := { s with results := r, status := s.status.complete }

/-- Error completion (R184): ERR and ERRCODE are written, BUSY clears, DONE sets, and nothing else changes. -/
def State.takeError (s : State) (c : ErrCode) : State := { s with status := (s.status.error c).complete }

/-- Completion (R102): `r` is what exec(op) returned, OK with the result state it writes, or Error(code). -/
def State.completeWith (s : State) (r : Except ErrCode Results) : Out :=
  match r with
  | .ok res => .next (s.completeOk res)
  | .error c => .next (s.takeError c)

/-- exec(ILLEGAL) is raise CmdError(ILLEGAL_OP) (R102, R84). -/
def State.completeIllegal (s : State) : Out := s.completeWith (.error .illegalOp)

/-- A host write of w to STATUS (R26). With bit 1 set it acknowledges an error (R186). -/
def State.acknowledge (s : State) (w : Word) : State := { s with status := s.status.clear w }

/-- A write dropped because BUSY is 1 (R58). -/
def State.dropWrite (s : State) : State := { s with status := s.status.drop }

/-- Issue of command word w (R100), with the number of host steps that may fall before its completion. -/
def State.issueAfter (s : State) (w : Word) (wait : Nat) (sched : Schedule) : State :=
  { s with lcmd := w, status := s.status.issue, sched := { sched with wait := wait } }

/-- Issue (R100). The delay is the next one the schedule names, or a free one where it names none (R7 LATENCY). -/
def State.issue (s : State) (w : Word) : State :=
  match s.sched.latency with
  | n :: rest => s.issueAfter w n { s.sched with latency := rest }
  | [] => s.issueAfter w (Config.latency s.sched.draws) { s.sched with draws := s.sched.draws + 1 }

/-- Issue of w with the completion as the very next step: one of the delays R105 allows. -/
def State.issueNow (s : State) (w : Word) : State := s.issueAfter w 0 s.sched

/-- A reset of the unit (R210): every piece of its state takes its R45 value, a command in flight is abandoned. -/
def State.resetUnit (s : State) : State := State.afterReset s.sched s.host

/-- The host agent has no statement left. -/
def State.hostIdle (s : State) : Bool := s.host.prog.length ≤ s.host.pc

/-- Which agent moves: the unit, when it has a command in flight and the delay is over or the host has nothing more to do
(R101, R102, R105); else the host. -/
def State.unitTurn (s : State) : Bool := s.status.busy && (s.sched.wait == 0 || s.hostIdle)

/-- A host step counts against the delay of the command in flight (U4). -/
def State.tick (s : State) : State :=
  if s.status.busy then { s with sched := { s.sched with wait := s.sched.wait - 1 } } else s

end Sys2Proof.Machine
end

