-- ==== Sys2Proof/Machine/Params.lean ====
section
/-! DEFINITION. The parameters the spec fixes (R7) and the two constant registers (R22, R23). -/

namespace Sys2Proof.Machine

/-- GF_POLY, x^8+x^4+x^3+x^2+1 (R7). -/
def gfPoly : Nat := 0x11D

/-- GF_PRIM, the primitive element alpha (R7, R13). -/
def gfPrim : Nat := 2

/-- GF_ORDER: exponents are summed mod 255 (R7). -/
def gfOrder : Nat := 255

/-- FMT_GEN = 0b10100110111, degree 10 (R7; spec/90_conflicts.md C1). -/
def fmtGen : Nat := 0b10100110111

/-- FMT_MASK (R7). -/
def fmtMask : Nat := 0x5412

/-- VER_GEN = 0b1111100100101, degree 12 (R7). -/
def verGen : Nat := 0b1111100100101

/-- VER_MIN_STRING: versions below 7 give the empty string (R7). -/
def verMinString : Nat := 7

/-- VER_MAX (R7). -/
def verMax : Nat := 40

/-- ECC_MAX (R7). -/
def eccMax : Nat := 30

/-- DBUF_DEPTH (R7). -/
def dbufDepth : Nat := 256

/-- GBUF_DEPTH = ECC_MAX + 1 (R7). -/
def gbufDepth : Nat := 31

/-- RBUF_DEPTH = ECC_MAX (R7). -/
def rbufDepth : Nat := 30

/-- ID always reads ASCII "GFRB" (R22). -/
def idWord : Word := 0x47465242#32

/-- CAP: ECC_MAX in bits 7:0 and DBUF_DEPTH in bits 24:16 (R23). -/
def capWord : Word := BitVec.ofNat 32 (dbufDepth <<< 16 ||| eccMax)

end Sys2Proof.Machine
end

