-- ==== Sys2Proof/Machine/Bch.lean ====
section
/-! DEFINITION. The BCH strings: the GF(2) remainder (R160), the format string (R161), the version string (R163), BCHFMT
(R162) and BCHVER (R164). A GF(2) polynomial is the integer whose bit i is the coefficient of x^i (R11). -/

namespace Sys2Proof.Machine

/-- `bitlen(v)`: the position of the highest set bit plus one, `bitlen(0) = 0` (R10). -/
def bitlen (v : Nat) : Nat := if v = 0 then 0 else Nat.log2 v + 1

/-- The loop of R160 for at most `fuel` rounds; each round lowers `bitlen(r)`. -/
def bchLoop (g : Nat) : Nat → Nat → Nat
  | 0, r => r
  | fuel + 1, r =>
    if bitlen g - 1 < bitlen r then bchLoop g fuel (r ^^^ (g <<< (bitlen r - 1 - (bitlen g - 1)))) else r

/-- `bchrem(v, G)` for G not 0 (R160). `bitlen(v)` rounds always suffice. -/
def bchrem (v g : Nat) : Nat := bchLoop g (bitlen v) v

/-- `fmtstr(c, m)` (R161). -/
def fmtstr (c m : Nat) : Nat :=
  let f := ((c <<< 3) ||| m) <<< 10
  (f + bchrem f fmtGen) ^^^ fmtMask

/-- `verstr(v)` (R163). -/
def verstr (v : Nat) : Nat :=
  let f := v <<< 12
  f + bchrem f verGen

/-- BCHFMT (R162). -/
def execBchfmt (s : State) : Out :=
  let c := s.operands.opa.toNat
  let m := s.operands.opb.toNat
  s.completeWith <|
    if 3 < c ∨ 7 < m then .error .fmtRange
    else .ok (s.results.writeResult (BitVec.ofNat 18 (fmtstr c m)) 15#5)

/-- BCHVER (R164): versions below 7 give the empty string, RESULT 0 and RLEN 0. -/
def execBchver (s : State) : Out :=
  let v := s.operands.opa.toNat
  s.completeWith <|
    if v = 0 ∨ verMax < v then .error .verRange
    else if v < verMinString then .ok (s.results.writeResult 0#18 0#5)
    else .ok (s.results.writeResult (BitVec.ofNat 18 (verstr v)) 18#5)

end Sys2Proof.Machine
end

