-- ==== Sys2Proof/Machine/Issue.lean ====
section
/-! DEFINITION. NOP (R106), the one command of the issue-and-completion family. -/

namespace Sys2Proof.Machine

/-- NOP (R106): `return OK({})`. -/
def execNop (s : State) : Out := s.completeWith (.ok s.results)

end Sys2Proof.Machine
end

