-- ==== Sys2Proof/Machine/ReedSolomon.lean ====
section
/-! DEFINITION. The Reed-Solomon generator polynomial (R140), the per-block remainder (R143), RSGEN (R141) and RSREM (R146).
A polynomial is its coefficients, highest degree first (R11). -/

namespace Sys2Proof.Machine

/-- `r` with its leading entries XORed with `h`; entries of `r` past the end of `h` are unchanged. -/
def xorInto : List Byte → List Byte → List Byte
  | x :: r, y :: h => (x ^^^ y) :: xorInto r h
  | r, [] => r
  | [], _ :: _ => []

/-- A polynomial scaled by a field element. -/
def scale (f : Byte) (g : List Byte) : List Byte := g.map fun c => gfmul c f

/-- One round of R140: `h <- g ++ [0]`, then `h[j] <- h[j] ^ gfmul(g[j-1], a)` for j in 1..len(g): g times (x + a). -/
def mulRoot (g : List Byte) (a : Byte) : List Byte := xorInto (g ++ [0#8]) (0#8 :: scale a g)

/-- R140 after `k` rounds, i in 1..k. -/
def genRounds : Nat → List Byte
  | 0 => [1#8, 1#8]
  | k + 1 => mulRoot (genRounds k) (expAt (k + 1))

/-- `gen(e)` for e ≥ 1 (R140): rounds i in 1..e-1. -/
def genPoly (e : Nat) : List Byte := genRounds (e - 1)

/-- One round of R143 on the part of `r` from index i on: XOR in the generator scaled by the leading coefficient f when f is
not 0, and pass on to index i + 1. `r[i]` is not read again. -/
def remRound (g : List Byte) (r : List Byte) : List Byte :=
  match r with
  | [] => []
  | f :: rest => if f = 0#8 then rest else (xorInto (f :: rest) (scale f g)).tail

/-- The rounds of R143, one for each of the `n` data codewords. -/
def remRounds (g : List Byte) : Nat → List Byte → List Byte
  | 0, r => r
  | n + 1, r => remRounds g n (remRound g r)

/-- `rsrem(d, g)` (R143): `d ++ [0] * e` with e = len(g) - 1, reduced; exactly e coefficients are left (R145). -/
def rsrem (d g : List Byte) : List Byte := remRounds g d.length (d ++ List.replicate (g.length - 1) 0#8)

/-- ECC = 0 or ECC > ECC_MAX (R181, code 3). -/
def eccOutOfRange (e : Byte) : Bool := e.toNat == 0 || eccMax < e.toNat

/-- LEN = 0 or LEN > DBUF_DEPTH (R181, code 4). -/
def lenOutOfRange (n : BitVec 9) : Bool := n.toNat == 0 || dbufDepth < n.toNat

/-- RSGEN (R141). -/
def execRsgen (s : State) : Out :=
  let e := s.operands.ecc
  s.completeWith <|
    if eccOutOfRange e then .error .eccRange
    else .ok (s.results.writeGenerator (genPoly e.toNat) e)

/-- RSREM (R146); the order of its checks is the priority R183. -/
def execRsrem (s : State) : Out :=
  let e := s.operands.ecc
  let n := s.operands.len
  s.completeWith <|
    if eccOutOfRange e then .error .eccRange
    else if lenOutOfRange n then .error .lenRange
    else if s.results.genDeg ≠ e then .error .noGen
    else .ok (s.results.writeRemainder (rsrem (s.operands.block n.toNat) (s.results.generator e.toNat)) e)

end Sys2Proof.Machine
end

