-- ==== Sys2Proof/Machine/Dispatch.lean ====
section
/-! DEFINITION. exec(op) of R102: one arm per command. -/

namespace Sys2Proof.Machine

def exec (i : Instr) (s : State) : Host.Outcome State Fault Refusal :=
  match i with
  | .nop => Sys2Proof.Machine.execNop s
  | .gfmul => Sys2Proof.Machine.execGfmul s
  | .gf2mul => Sys2Proof.Machine.execGf2mul s
  | .gflog => Sys2Proof.Machine.execGflog s
  | .gfexp => Sys2Proof.Machine.execGfexp s
  | .rsgen => Sys2Proof.Machine.execRsgen s
  | .rsrem => Sys2Proof.Machine.execRsrem s
  | .bchfmt => Sys2Proof.Machine.execBchfmt s
  | .bchver => Sys2Proof.Machine.execBchver s

end Sys2Proof.Machine
end

