-- ==== Sys2Proof/Machine/Bus.lean ====
section
/-! DEFINITION. The host port: where the window sits (R50), its address map (R51), reads (R56), writes (R57, R58) and bus
errors (R53). -/

namespace Sys2Proof.Machine

/-- GFRB_BASE, 4 KiB aligned (R50, U5). -/
def gfrbBase : Nat := Config.gfrbPage * 4096

/-- The host address of a byte offset in the window (R86). -/
def hostAddress (off : BitVec 12) : Nat := gfrbBase + off.toNat

/-- The byte offset a host address has in the window, if it lies in the window (R50). -/
def windowOffset (addr : Nat) : Option (BitVec 12) :=
  if gfrbBase ≤ addr ∧ addr < gfrbBase + 4096 then some (BitVec.ofNat 12 (addr - gfrbBase)) else none

/-- `off(loc)`: the offset of a location in the map R51. -/
def Loc.offset : Loc → BitVec 12
  | .id     => 0x000#12
  | .cap    => 0x004#12
  | .cmd    => 0x008#12
  | .status => 0x00C#12
  | .irqEn  => 0x010#12
  | .opa    => 0x014#12
  | .opb    => 0x018#12
  | .ecc    => 0x01C#12
  | .len    => 0x020#12
  | .result => 0x024#12
  | .rlen   => 0x028#12
  | .genDeg => 0x02C#12
  | .remCnt => 0x030#12
  | .dbuf i => BitVec.ofNat 12 (0x400 + 4 * i.val)
  | .gbuf j => BitVec.ofNat 12 (0x800 + 4 * j.val)
  | .rbuf k => BitVec.ofNat 12 (0xC00 + 4 * k.val)

/-- The register at word `n` of the map R51, for the words below 0x034. -/
def regAt (n : Nat) : Option Loc :=
  match n with
  | 0 => some .id
  | 1 => some .cap
  | 2 => some .cmd
  | 3 => some .status
  | 4 => some .irqEn
  | 5 => some .opa
  | 6 => some .opb
  | 7 => some .ecc
  | 8 => some .len
  | 9 => some .result
  | 10 => some .rlen
  | 11 => some .genDeg
  | 12 => some .remCnt
  | _ => none

/-- The location at an aligned offset; none at the reserved words of R51 (R55). -/
def locAt (off : BitVec 12) : Option Loc :=
  let n := off.toNat / 4
  if n < 0x100 then regAt n
  else if h : n < 0x200 then some (.dbuf ⟨n - 0x100, by omega⟩)
  else if h : n - 0x200 < 31 then some (.gbuf ⟨n - 0x200, h⟩)
  else if h : 0x300 ≤ n ∧ n - 0x300 < 30 then some (.rbuf ⟨n - 0x300, h.2⟩)
  else none

/-- The locations whose reads are draws while a command is in flight: the result state (R56, R32). -/
def Loc.isResult : Loc → Bool
  | .result | .rlen | .genDeg | .remCnt | .gbuf _ | .rbuf _ => true
  | .id | .cap | .cmd | .status | .irqEn | .opa | .opb | .ecc | .len | .dbuf _ => false

/-- A location's value zero-extended to 32 bits, reserved bits 0 (R56); CMD reads 0 (R24). -/
def Loc.value (s : State) : Loc → Word
  | .id     => idWord
  | .cap    => capWord
  | .cmd    => 0#32
  | .status => s.status.word
  | .irqEn  => (flagBit s.ie).setWidth 32
  | .opa    => s.operands.opa.setWidth 32
  | .opb    => s.operands.opb.setWidth 32
  | .ecc    => s.operands.ecc.setWidth 32
  | .len    => s.operands.len.setWidth 32
  | .result => s.results.result.setWidth 32
  | .rlen   => s.results.rlen.setWidth 32
  | .genDeg => s.results.genDeg.setWidth 32
  | .remCnt => s.results.remCnt.setWidth 32
  | .dbuf i => s.operands.dbuf[i].setWidth 32
  | .gbuf j => s.results.gbuf[j].setWidth 32
  | .rbuf k => s.results.rbuf[k].setWidth 32

/-- The width of a result location's field: a draw stays in the field's range (R56, U2). -/
def Loc.width : Loc → Nat
  | .result => 18
  | .rlen   => 5
  | .genDeg | .remCnt | .gbuf _ | .rbuf _ => 8
  | .id | .cap | .cmd | .status | .irqEn | .opa | .opb | .ecc | .len | .dbuf _ => 32

/-- The draw a read of a result location returns while BUSY is 1 (R56). -/
def Loc.draw (s : State) (l : Loc) : Word := ((Config.freeValue s.sched.draws).setWidth l.width).setWidth 32

/-- Whether a read of an offset is a draw (R56). -/
def State.readIsDraw (s : State) (off : BitVec 12) : Bool :=
  match locAt off with
  | some l => s.status.busy && l.isResult
  | none => false

/-- What an aligned read returns (R56); a reserved word reads 0 (R55). -/
def State.readWord (s : State) (off : BitVec 12) : Word :=
  match locAt off with
  | some l => if s.status.busy && l.isResult then l.draw s else l.value s
  | none => 0#32

/-- A read never changes state (R56); the model's counter moves past a draw, so that a second read may differ (U2). -/
def State.afterRead (s : State) (off : BitVec 12) : State :=
  if s.readIsDraw off then { s with sched := { s.sched with draws := s.sched.draws + 1 } } else s

/-- An aligned write to a location that is not dropped (R57). -/
def State.writeLoc (s : State) (l : Loc) (w : Word) : State :=
  match l with
  | .cmd    => s.issue w
  | .status => s.acknowledge w
  | .irqEn  => { s with ie := w.getLsbD 0 }
  | .opa    => { s with operands := s.operands.writeOpa w }
  | .opb    => { s with operands := s.operands.writeOpb w }
  | .ecc    => { s with operands := s.operands.writeEcc w }
  | .len    => { s with operands := s.operands.writeLen w }
  | .dbuf i => { s with operands := s.operands.writeDbuf i w }
  | .id | .cap | .result | .rlen | .genDeg | .remCnt | .gbuf _ | .rbuf _ => s

/-- The two offsets whose writes are never dropped: STATUS and IRQ_EN (R58). -/
def writableWhileBusy (off : BitVec 12) : Bool := off == 0x00C#12 || off == 0x010#12

/-- An aligned write (R57, R58); a write to a reserved word changes nothing when it is not dropped (R55). -/
def State.writeWord (s : State) (off : BitVec 12) (w : Word) : State :=
  if s.status.busy && !writableWhileBusy off then s.dropWrite
  else
    match locAt off with
    | some l => s.writeLoc l w
    | none => s

/-- What the port answers an access with; an access the bus does not serve gets a bus error (R52, R53). -/
def State.respond (s : State) (a : Access) : BusResponse :=
  if a.served then
    match a.op with
    | .read => .data (s.readWord a.offset)
    | .write _ => .ack
  else .busError a.offset

/-- The state after an access; one that gets a bus error changes no state (R53). -/
def State.access (s : State) (a : Access) : State :=
  if a.served then
    match a.op with
    | .read => s.afterRead a.offset
    | .write w => s.writeWord a.offset w
  else s

end Sys2Proof.Machine
end

