-- ==== Sys2Proof/Machine/HostProgram.lean ====
section
/-! DEFINITION. The host agent's step: the statements of a host program (R86, R87), and the pseudo-instructions of R88. -/

namespace Sys2Proof.Machine

/-- A host temporary's value (R87); one never written holds a free value (log entry 9). -/
def getTemp : List (Nat × Word) → Nat → Word
  | [], t => Config.hostTempInit t
  | (u, v) :: rest, t => if u = t then v else getTemp rest t

/-- A host temporary written; the list stays in rising order, one entry a temporary. -/
def setTemp : List (Nat × Word) → Nat → Word → List (Nat × Word)
  | [], t, w => [(t, w)]
  | (u, v) :: rest, t, w =>
    if t < u then (t, w) :: (u, v) :: rest
    else if t = u then (t, w) :: rest
    else (u, v) :: setTemp rest t w

/-- The index of the statement `label n:` in a program (R87). -/
def labelIndex : List Stmt → Nat → Option Nat
  | [], _ => none
  | st :: rest, n => if st = .label n then some 0 else (labelIndex rest n).map (· + 1)

/-- `MemRead(GFRB_BASE + off(loc), 4)` at the port (R87). -/
def readAccess (l : Loc) : Access := { offset := l.offset, lanes := 0b1111#4, more := 0, op := .read }

/-- `MemWrite(GFRB_BASE + off(loc), 4, v)` at the port (R87). -/
def writeAccess (l : Loc) (v : Word) : Access := { offset := l.offset, lanes := 0b1111#4, more := 0, op := .write v }

/-- The host's next statement in order. -/
def HostAgent.advance (h : HostAgent) : HostAgent := { h with pc := h.pc + 1 }

/-- The host takes the response to its access; data goes to temporary `t`, and a bus error returns no data (R53). -/
def HostAgent.receive (h : HostAgent) (t : Nat) (r : BusResponse) : HostAgent :=
  match r with
  | .data w => { h with temps := setTemp h.temps t w, resp := some (.data w) }
  | .ack => { h with resp := some .ack }
  | .busError off => { h with resp := some (.busError off) }

/-- The host performs one access and goes on to its next statement, after a bus error too (R53: never final). -/
def State.hostAccess (s : State) (a : Access) (t : Nat) : State :=
  let s' := s.access a
  { s' with host := (s.host.receive t (s.respond a)).advance }

/-- Whether `BNE t, mask, value, label` branches: `(t & mask) != value` (R87). -/
def branchTaken (h : HostAgent) (t : Nat) (mask value : Word) : Bool := (getTemp h.temps t &&& mask) != value

/-- One statement of the host program (R86, R87); `rst` is the platform's reset between two accesses (R210). -/
def State.hostStmt (s : State) (st : Stmt) : Out :=
  match st with
  | .wr l v => .next (s.hostAccess (writeAccess l v) 0)
  | .rd l t => .next (s.hostAccess (readAccess l) t)
  | .issue i => .next (s.hostAccess (writeAccess .cmd (encode i)) 0)
  | .issueWord w => .next (s.hostAccess (writeAccess .cmd w) 0)
  | .label _ => .next { s with host := s.host.advance }
  | .bne t mask value n =>
    if branchTaken s.host t mask value then
      match labelIndex s.host.prog n with
      | some k => .next { s with host := { s.host with pc := k } }
      | none => .fault (.undefinedLabel n)
    else .next { s with host := s.host.advance }
  | .raw a t => .next (s.hostAccess a t)
  | .rst =>
    let s' := s.resetUnit
    .next { s' with host := s.host.advance }

/-- A step of the host agent; with no statement left it does nothing, and "all state survives idleness" (R194). -/
def State.hostStep (s : State) : Out :=
  match s.host.prog[s.host.pc]? with
  | some st => s.tick.hostStmt st
  | none => .next s

/-! The pseudo-instructions of R88; `t` is the host temporary and `L` the label of the expansion's POLL. -/

/-- POLL: spin until BUSY = 0. -/
def poll (L t : Nat) : List Stmt := [.label L, .rd .status t, .bne t 0x1 0x0 L]

/-- CLRDONE. -/
def clrDone : List Stmt := [.wr .status 0x2]

/-- CLRWBUSY. -/
def clrWbusy : List Stmt := [.wr .status 0x8]

/-- MUL256 a, b -> r. -/
def mul256 (a b : Word) (L t r : Nat) : List Stmt := [.wr .opa a, .wr .opb b, .issue .gfmul] ++ poll L t ++ [.rd .result r]

/-- MUL2 a, b -> r. -/
def mul2 (a b : Word) (L t r : Nat) : List Stmt := [.wr .opa a, .wr .opb b, .issue .gf2mul] ++ poll L t ++ [.rd .result r]

/-- LOG v -> r. -/
def logOf (v : Word) (L t r : Nat) : List Stmt := [.wr .opa v, .issue .gflog] ++ poll L t ++ [.rd .result r]

/-- EXP e -> r. -/
def expOf (e : Word) (L t r : Nat) : List Stmt := [.wr .opa e, .issue .gfexp] ++ poll L t ++ [.rd .result r]

/-- GEN ecc. -/
def genOf (ecc : Word) (L t : Nat) : List Stmt := [.wr .ecc ecc, .issue .rsgen] ++ poll L t

/-- The writes `WR DBUF[i], d[0] ; WR DBUF[i+1], d[1] ; ...` of LOADBLK; DBUF has no entry past 255. -/
def loadFrom : Nat → List Byte → List Stmt
  | _, [] => []
  | i, d :: rest => if h : i < 256 then .wr (.dbuf ⟨i, h⟩) (d.setWidth 32) :: loadFrom (i + 1) rest else []

/-- LOADBLK d[0..n-1]. -/
def loadBlk (d : List Byte) : List Stmt := .wr .len (BitVec.ofNat 32 d.length) :: loadFrom 0 d

/-- REM. -/
def remOf (L t : Nat) : List Stmt := [.issue .rsrem] ++ poll L t

/-- FMT ecl, m -> r. -/
def fmtOf (ecl m : Word) (L t r : Nat) : List Stmt := [.wr .opa ecl, .wr .opb m, .issue .bchfmt] ++ poll L t ++ [.rd .result r]

/-- VER v -> r, l. -/
def verOf (v : Word) (L t r l : Nat) : List Stmt :=
  [.wr .opa v, .issue .bchver] ++ poll L t ++ [.rd .result r, .rd .rlen l]

end Sys2Proof.Machine
end

