-- ==== Sys2Proof/Machine/Step.lean ====
section
/-! DEFINITION. One step of the machine: of the unit (R102) or of the host (R62), in the one order R62 gives them. -/

namespace Sys2Proof.Machine

/-- One step. On the unit's turn the command in flight completes: LCMD is decoded and executed, an illegal word completes
with ILLEGAL_OP (R102). Otherwise the host takes one step. -/
def step (s : State) : Host.Outcome State Fault Refusal :=
  if s.unitTurn then
    match decode s.lcmd with
    | .ok i => exec i s
    | .error _ => s.completeIllegal
  else s.hostStep

/-- The state with the command word `w` (its lowest `nbits` bits) issued and its completion the next step (R100, R105). The
unit fetches nothing (R21): a command word exists only in LCMD (R65), so this is where the next step finds it. -/
def State.withFetchWord (s : State) (nbits w : Nat) : State := s.issueNow (BitVec.ofNat 32 (w % 2 ^ nbits))

end Sys2Proof.Machine
end

