-- ==== Sys2Proof/Safety.lean ====
section
/-! DEFINITION. The terms the claims use: which states are legal (R25, R33, R34, R46), what a command may read and write
(R82), and the clear reference functions that the fast ones are claimed equal to. -/

namespace Sys2Proof.Machine

/-- The legal combinations of the STATUS fields (R25). -/
abbrev Status.Legal (st : Status) : Prop :=
  (st.busy = true → st.done = false ∧ st.err = false ∧ st.errcode = .noError) ∧
  (st.err = true → st.done = true ∧ st.errcode ≠ .noError) ∧
  (st.err = false → st.errcode = .noError)

/-- A command is in flight: the states in which the unit's step is enabled (R101), with STATUS legal. -/
abbrev InFlight (s : State) : Prop := s.status.busy = true ∧ s.status.Legal

/-- RLEN is the number of meaningful low bits of RESULT (R34): 0, 8, 15 or 18, and RESULT fits in them (R33). -/
abbrev Results.ResultFits (r : Results) : Prop :=
  (r.rlen = 0#5 ∨ r.rlen = 8#5 ∨ r.rlen = 15#5 ∨ r.rlen = 18#5) ∧ r.result.toNat < 2 ^ r.rlen.toNat

/-- GBUF[0..GEN_DEG] holds the generator of degree GEN_DEG when GEN_DEG ≥ 1 (R46), and GEN_DEG is at most ECC_MAX. -/
abbrev Results.GeneratorHeld (r : Results) : Prop :=
  r.genDeg.toNat ≤ 30 ∧ (1 ≤ r.genDeg.toNat → r.generator r.genDeg.toNat = genPoly r.genDeg.toNat)

/-- The host's temporaries stand in strictly rising order, one entry a temporary. -/
abbrev HostAgent.TempsOrdered (h : HostAgent) : Prop := List.Pairwise (fun p q => p.1 < q.1) h.temps

/-- What every step keeps. -/
abbrev State.Inv (s : State) : Prop :=
  s.status.Legal ∧ s.results.ResultFits ∧ s.results.GeneratorHeld ∧ s.results.remCnt.toNat ≤ 30 ∧ s.host.TempsOrdered

/-- STATUS after a completion without error: DONE, and WBUSY as it was (R103). -/
def Status.okAfter (st : Status) : Status :=
  { busy := false, done := true, err := false, wbusy := st.wbusy, errcode := .noError }

/-- STATUS after an error completion: DONE, ERR and the code, and WBUSY as it was (R184). -/
def Status.errAfter (st : Status) (c : ErrCode) : Status :=
  { busy := false, done := true, err := true, wbusy := st.wbusy, errcode := c }

/-- The errors each command can raise (R182). -/
def errorsOf : Instr → List ErrCode
  | .nop    => []
  | .gfmul  => []
  | .gf2mul => []
  | .gflog  => [.logZero]
  | .gfexp  => []
  | .rsgen  => [.eccRange]
  | .rsrem  => [.eccRange, .lenRange, .noGen]
  | .bchfmt => [.fmtRange]
  | .bchver => [.verRange]

/-- Two states hold the same inputs of a command (R82, R68). -/
def SameInputs (i : Instr) (s s' : State) : Prop :=
  match i with
  | .nop => True
  | .gfmul | .gf2mul | .bchfmt => s.operands.opa = s'.operands.opa ∧ s.operands.opb = s'.operands.opb
  | .gflog | .gfexp | .bchver => s.operands.opa = s'.operands.opa
  | .rsgen => s.operands.ecc = s'.operands.ecc
  | .rsrem =>
    s.operands.ecc = s'.operands.ecc ∧ s.operands.len = s'.operands.len ∧ s.results.genDeg = s'.results.genDeg ∧
    s.operands.block s.operands.len.toNat = s'.operands.block s.operands.len.toNat ∧
    s.results.generator s.operands.ecc.toNat = s'.results.generator s.operands.ecc.toNat

/-- Two states hold the same outputs of a command (R82), `e` being its ECC operand. -/
def SameOutputs (i : Instr) (e : Nat) (t t' : State) : Prop :=
  match i with
  | .nop => True
  | .gfmul | .gf2mul | .gflog | .gfexp | .bchfmt | .bchver =>
    t.results.result = t'.results.result ∧ t.results.rlen = t'.results.rlen
  | .rsgen => t.results.generator e = t'.results.generator e ∧ t.results.genDeg = t'.results.genDeg
  | .rsrem =>
    t.results.rbuf.toList.take e = t'.results.rbuf.toList.take e ∧ t.results.remCnt = t'.results.remCnt

/-- From `s` to `t` the result state changes at most in the outputs R82 lists for the command. -/
def OutputsOnly (i : Instr) (s t : State) : Prop :=
  match i with
  | .nop => t.results = s.results
  | .gfmul | .gf2mul | .gflog | .gfexp | .bchfmt | .bchver =>
    t.results = { s.results with result := t.results.result, rlen := t.results.rlen }
  | .rsgen =>
    t.results = { s.results with gbuf := t.results.gbuf, genDeg := t.results.genDeg } ∧
    ∀ j : Fin 31, s.operands.ecc.toNat < j.val → t.results.gbuf[j] = s.results.gbuf[j]
  | .rsrem =>
    t.results = { s.results with rbuf := t.results.rbuf, remCnt := t.results.remCnt } ∧
    ∀ k : Fin 30, s.operands.ecc.toNat ≤ k.val → t.results.rbuf[k] = s.results.rbuf[k]

/-- Everything but STATUS and the result state is the same in `t` as in `s`. -/
abbrev State.SameButResults (s t : State) : Prop :=
  t.ie = s.ie ∧ t.operands = s.operands ∧ t.lcmd = s.lcmd ∧ t.sched = s.sched ∧ t.host = s.host

/-- `MemRead(addr, 4)` at a byte offset of the window (R10, R52). -/
def wordRead (off : BitVec 12) : Access := { offset := off, lanes := 0b1111#4, more := 0, op := .read }

/-- `MemWrite(addr, 4, w)` at a byte offset of the window (R10, R52). -/
def wordWrite (off : BitVec 12) (w : Word) : Access := { offset := off, lanes := 0b1111#4, more := 0, op := .write w }

/-- The reserved words of the address map (R51, R55). -/
abbrev Reserved (off : BitVec 12) : Prop :=
  off.toNat % 4 = 0 ∧ ((0x034 ≤ off.toNat ∧ off.toNat ≤ 0x3FC) ∨ (0x87C ≤ off.toNat ∧ off.toNat ≤ 0xBFC) ∨
    (0xC78 ≤ off.toNat ∧ off.toNat ≤ 0xFFC))

/-- The read-only words of the address map: ID, CAP, RESULT, RLEN, GEN_DEG, REM_CNT, GBUF and RBUF (R51, R57). -/
abbrev ReadOnly (off : BitVec 12) : Prop :=
  off.toNat % 4 = 0 ∧ (off.toNat ≤ 0x004 ∨ (0x024 ≤ off.toNat ∧ off.toNat ≤ 0x030) ∨
    (0x800 ≤ off.toNat ∧ off.toNat ≤ 0x878) ∨ (0xC00 ≤ off.toNat ∧ off.toNat ≤ 0xC74))

/-! Reference functions. -/

/-- One round of the construction R120: double, and XOR with 0x11D when the double exceeds 255. -/
def expStep (v : Nat) : Nat := if 255 < v <<< 1 then (v <<< 1) ^^^ 0x11D else v <<< 1

/-- The value the construction R120 records at exponent `e`. -/
def expBuilt : Nat → Nat
  | 0 => 1
  | e + 1 => expStep (expBuilt e)

/-- The carry-less product of the lowest `n` bits of `a` with `b`. -/
def clmulBits : Nat → Nat → Nat → Nat
  | 0, _, _ => 0
  | n + 1, a, b => clmulBits n a b ^^^ (if a.testBit n then b <<< n else 0)

/-- The carry-less product: multiplication of GF(2) polynomials (R11, R122). -/
def clmul (a b : Nat) : Nat := clmulBits (bitlen a) a b

/-- The value of a polynomial over GF(256) at x, highest degree first (R11), by Horner's rule. -/
def polyEval (p : List Byte) (x : Byte) : Byte := p.foldl (fun acc c => gfmul acc x ^^^ c) 0#8

/-- The product of two polynomials over GF(256), highest degree first (R11). -/
def polyMul : List Byte → List Byte → List Byte
  | [], _ => []
  | c :: p, q => xorInto (scale c q ++ List.replicate p.length 0#8) (0#8 :: polyMul p q)

/-- The source's long division read literally (R143, R144): strip leading zeros, stop when the rest is shorter than the
divisor, else XOR in the scaled divisor. -/
def stripDivide (g : List Byte) : Nat → List Byte → List Byte
  | 0, r => r
  | fuel + 1, r =>
    match r.dropWhile (· == 0#8) with
    | [] => []
    | f :: rest =>
      if (f :: rest).length < g.length then f :: rest
      else stripDivide g fuel (xorInto (f :: rest) (scale f g))

/-- The remainder by the source's strip-leading-zeros loop, left-padded with zero codewords to len(g) - 1 (R145). -/
def stripRemainder (d g : List Byte) : List Byte :=
  let r := stripDivide g (d.length + g.length) (d ++ List.replicate (g.length - 1) 0#8)
  List.replicate (g.length - 1 - r.length) 0#8 ++ r

end Sys2Proof.Machine
end

