-- ==== Sys2Proof/WellFormed.lean ====
section
/-! DEFINITION. Well-formedness: of a command, of a bus access, and of a host program. -/

namespace Sys2Proof

/-- A command word has no immediate, register or mode field (R81), so a command has nothing that could be out of range. -/
def Instr.wellFormed : Instr → Bool
  | .nop    => true
  | .gfmul  => true
  | .gf2mul => true
  | .gflog  => true
  | .gfexp  => true
  | .rsgen  => true
  | .rsrem  => true
  | .bchfmt => true
  | .bchver => true

/-- An access is well formed when the host bus serves it (R52); the unit answers any other with a bus error (R53). -/
def Access.wellFormed (a : Machine.Access) : Bool := a.served

/-- A host program is well formed when each label names one statement and every branch goes to a label it has (R87). -/
def Program.wellFormed (prog : List Machine.Stmt) : Bool :=
  decide (Machine.labelsOf prog).Nodup && Machine.labelsDefined prog

end Sys2Proof
end

