-- ==== Sys2Proof/Certificates/Slice0/Obligations.lean ====
section
/-! DEFINITION. The statements for the provers, from the numbered rules of spec/. Nothing is proved here. -/

open Sys2Proof Sys2Proof.Machine

/-! Encoding and decoding (R80 to R85). -/

/-- R85: decode is total and follows the opcode map; RSV = w / 16 and OP = w mod 16. -/
def Obligations.DecodeFollowsTheOpcodeMap : Prop :=
  ∀ w : Word,
    (w.toNat / 16 ≠ 0 → decode w = .error .rsvNonzero) ∧
    (w.toNat = 0x0 → decode w = .ok .nop) ∧ (w.toNat = 0x1 → decode w = .ok .gfmul) ∧
    (w.toNat = 0x2 → decode w = .ok .gf2mul) ∧ (w.toNat = 0x3 → decode w = .ok .gflog) ∧
    (w.toNat = 0x4 → decode w = .ok .gfexp) ∧ (w.toNat = 0x5 → decode w = .ok .rsgen) ∧
    (w.toNat = 0x6 → decode w = .ok .rsrem) ∧ (w.toNat = 0x7 → decode w = .ok .bchfmt) ∧
    (w.toNat = 0x8 → decode w = .ok .bchver) ∧
    (w.toNat / 16 = 0 → 9 ≤ w.toNat % 16 → decode w = .error .reservedOp)

/-- Decode and encode agree in both directions (R83, R84): a word decodes to a command exactly when it is its word. -/
def Obligations.DecodeAcceptsExactlyTheCommandWords : Prop :=
  ∀ (w : Word) (i : Instr), decode w = .ok i ↔ w = encode i

/-- The nine words of the opcode table, written bit by bit from R80's pattern, decode to their commands. -/
def Obligations.TheNineWrittenWordsDecode : Prop :=
  decode 0b00000000000000000000000000000000#32 = .ok .nop ∧
  decode 0b00000000000000000000000000000001#32 = .ok .gfmul ∧
  decode 0b00000000000000000000000000000010#32 = .ok .gf2mul ∧
  decode 0b00000000000000000000000000000011#32 = .ok .gflog ∧
  decode 0b00000000000000000000000000000100#32 = .ok .gfexp ∧
  decode 0b00000000000000000000000000000101#32 = .ok .rsgen ∧
  decode 0b00000000000000000000000000000110#32 = .ok .rsrem ∧
  decode 0b00000000000000000000000000000111#32 = .ok .bchfmt ∧
  decode 0b00000000000000000000000000001000#32 = .ok .bchver

/-- R84: an illegal word is accepted by an issue, completes with ILLEGAL_OP and changes no result state; every word that is
no row of the opcode map is illegal. -/
def Obligations.IllegalWordsCompleteWithIllegalOp : Prop :=
  ∀ w : Word, (∀ i : Instr, w ≠ encode i) →
    (w.toNat / 16 ≠ 0 ∨ 9 ≤ w.toNat % 16) ∧
    (∀ s : State, s.status.busy = false →
      (s.access (wordWrite 0x008#12 w)).status.busy = true ∧ (s.access (wordWrite 0x008#12 w)).lcmd = w) ∧
    (∀ s : State, s.unitTurn = true → s.lcmd = w →
      step s = .next { s with status := s.status.errAfter .illegalOp })

/-! The step (R21, R62, R101, R102). -/

/-- On the unit's turn the step is exec of the command LCMD holds (R102), and nothing is added around it: the unit has no
program counter (R21). When the unit has its turn is the model's schedule, log entry 3. -/
def Obligations.UnitTurnRunsTheDecodedCommand : Prop :=
  ∀ (s : State) (i : Instr), s.status.busy = true → (s.sched.wait = 0 ∨ s.host.prog.length ≤ s.host.pc) →
    decode s.lcmd = .ok i → step s = exec i s

/-- A state given a command word runs exactly that command as its next step (log entry 8 for how a word gets there). -/
def Obligations.AFetchWordRunsNext : Prop :=
  ∀ (s : State) (i : Instr),
    (s.withFetchWord 32 (encode i).toNat).lcmd = encode i ∧ (s.withFetchWord 32 (encode i).toNat).status.busy = true ∧
    (s.withFetchWord 32 (encode i).toNat).operands = s.operands ∧
    (s.withFetchWord 32 (encode i).toNat).results = s.results ∧
    step (s.withFetchWord 32 (encode i).toNat) = exec i (s.withFetchWord 32 (encode i).toNat)

/-- Off the unit's turn the step is one statement of the host program, and with none left nothing changes (R62, R101, R194);
a host step counts down the delay of the command in flight (log entry 3). -/
def Obligations.HostTurnRunsTheNextStatement : Prop :=
  (∀ (s : State) (st : Stmt), s.unitTurn = false → s.host.prog[s.host.pc]? = some st → s.status.busy = false →
    step s = s.hostStmt st) ∧
  (∀ (s : State) (st : Stmt), s.unitTurn = false → s.host.prog[s.host.pc]? = some st → s.status.busy = true →
    step s = State.hostStmt { s with sched := { s.sched with wait := s.sched.wait - 1 } } st) ∧
  (∀ s : State, s.unitTurn = false → s.host.prog[s.host.pc]? = none → step s = .next s)

/-! Issue and completion (R100 to R106, R184). -/

/-- R100: an aligned write to CMD with BUSY = 0 latches any word and sets BUSY, clears DONE, ERR and ERRCODE, and changes
nothing else of the unit; with BUSY = 1 it is dropped. The schedule is the model's own (log entry 3). -/
def Obligations.CmdWriteIssuesTheWord : Prop :=
  (∀ (s : State) (w : Word), s.status.busy = false →
    ∃ sc : Schedule, s.access (wordWrite 0x008#12 w) =
      { s with lcmd := w, sched := sc,
               status := { busy := true, done := false, err := false, wbusy := s.status.wbusy, errcode := .noError } }) ∧
  (∀ (s : State) (w : Word), s.status.busy = true →
    s.access (wordWrite 0x008#12 w) = { s with status := { s.status with wbusy := true } })

/-- R103: a command that completes without error leaves STATUS reading 0x2 or 0xA and changes exactly its outputs. -/
def Obligations.SuccessChangesOnlyTheOutputs : Prop :=
  ∀ (i : Instr) (s t : State), InFlight s → exec i s = .next t → t.status.err = false →
    t.status = s.status.okAfter ∧ t.status.word.toNat = (if s.status.wbusy then 0xA else 0x2) ∧
    s.SameButResults t ∧ OutputsOnly i s t

/-- R184: an error completion writes ERR, ERRCODE, BUSY and DONE and leaves everything else; STATUS reads as the rule says,
and the unit at once accepts the next command. -/
def Obligations.ErrorCompletionWritesOnlyStatus : Prop :=
  ∀ (i : Instr) (s t : State), InFlight s → exec i s = .next t → t.status.err = true →
    t = { s with status := s.status.errAfter t.status.errcode } ∧ t.status.errcode ≠ .noError ∧
    t.status.word.toNat = 0x6 ||| (t.status.errcode.bits.toNat <<< 8) ||| ((if s.status.wbusy then 1 else 0) <<< 3) ∧
    ∀ w : Word, (t.access (wordWrite 0x008#12 w)).status.busy = true ∧ (t.access (wordWrite 0x008#12 w)).lcmd = w

/-- R182: the errors each command can raise, the one an illegal word raises, and that a write raises none. -/
def Obligations.CommandsRaiseOnlyTheirErrors : Prop :=
  (∀ (i : Instr) (s t : State), InFlight s → exec i s = .next t → t.status.err = true → t.status.errcode ∈ errorsOf i) ∧
  (∀ s t : State, s.unitTurn = true → (∀ i : Instr, s.lcmd ≠ encode i) → step s = .next t →
    t.status.err = true ∧ t.status.errcode = .illegalOp) ∧
  (∀ (s : State) (a : Access), (s.access a).status.err = true → s.status.err = true)

/-- R82, R68, R101: what a command answers depends on the inputs R82 lists for it and on nothing else. -/
def Obligations.OutputsDependOnlyOnTheInputs : Prop :=
  ∀ (i : Instr) (s s' t t' : State), InFlight s → InFlight s' → SameInputs i s s' →
    exec i s = .next t → exec i s' = .next t' →
    t.status.err = t'.status.err ∧ t.status.errcode = t'.status.errcode ∧
    (t.status.err = false → SameOutputs i s.operands.ecc.toNat t t')

/-- R7, R223: no result depends on the latency; a command does the same under every schedule. -/
def Obligations.NoResultDependsOnTheSchedule : Prop :=
  ∀ (i : Instr) (s t : State) (sc : Schedule), exec i s = .next t → exec i { s with sched := sc } = .next { t with sched := sc }

/-- R106: NOP completes and leaves all result state; from reset it leaves STATUS = 2 and everything else at its reset value. -/
def Obligations.NopCompletes : Prop :=
  (∀ s : State, InFlight s → exec .nop s = .next { s with status := s.status.okAfter }) ∧
  encode .nop = 0#32 ∧
  (∃ t : State, step (State.reset.withFetchWord 32 0) = .next t ∧ t.status.word = 2#32 ∧ t.ie = false ∧
    t.operands = State.reset.operands ∧ t.results = State.reset.results)

/-! GF(256) (R120 to R128). -/

/-- R120: the EXP ROM is what its construction records. -/
def Obligations.ExpTableFollowsItsConstruction : Prop :=
  expTable.length = 256 ∧ (∀ e : Fin 256, (expAt e.val).toNat = expBuilt e.val) ∧
  expAt 255 = expAt 0 ∧ expAt 0 = 1#8

/-- R121: LOG[v] is the unique e in 0..254 with EXP[e] = v, for v in 1..255; LOG[1] = 0. -/
def Obligations.LogIsTheUniqueExponent : Prop :=
  (∀ v : Byte, v ≠ 0#8 → (logAt v).toNat ≤ 254 ∧ expAt (logAt v).toNat = v ∧
    ∀ e : Nat, e ≤ 254 → expAt e = v → e = (logAt v).toNat) ∧
  logAt 1#8 = 0#8

/-- R122: gfmul is 0 on a zero operand, else EXP of the sum of the logarithms mod 255, and it is the carry-less product
reduced modulo x^8+x^4+x^3+x^2+1. -/
def Obligations.GfmulIsTheReducedCarrylessProduct : Prop :=
  ∀ a b : Byte,
    (a = 0#8 ∨ b = 0#8 → gfmul a b = 0#8) ∧
    (a ≠ 0#8 → b ≠ 0#8 → gfmul a b = expAt (((logAt a).toNat + (logAt b).toNat) % 255)) ∧
    (gfmul a b).toNat = bchrem (clmul a.toNat b.toNat) 0x11D

/-- R127: the field laws of gfmul, XOR being addition. -/
def Obligations.GfmulObeysTheFieldLaws : Prop :=
  (∀ a b : Byte, gfmul a b = gfmul b a) ∧
  (∀ a b c : Byte, gfmul (gfmul a b) c = gfmul a (gfmul b c)) ∧
  (∀ a b c : Byte, gfmul a (b ^^^ c) = gfmul a b ^^^ gfmul a c) ∧
  (∀ a : Byte, gfmul a 1#8 = a ∧ gfmul a 0#8 = 0#8 ∧ gfmul 0#8 a = 0#8) ∧
  (∀ a : Byte, a ≠ 0#8 → ∀ b : Byte, gfmul a b = 1#8 ↔ b = expAt ((255 - (logAt a).toNat) % 255))

/-- R128: the table round trip and the product's laws that the source states. -/
def Obligations.SourceTablePropertiesHold : Prop :=
  (∀ x : Byte, x ≠ 0#8 → expAt (logAt x).toNat = x) ∧
  (∀ a b : Byte, gfmul a b = gfmul b a) ∧
  (∀ x : Byte, gfmul x 0#8 = 0#8 ∧ gfmul 0#8 x = 0#8 ∧ gfmul x 1#8 = x)

/-- R123: GFMUL on every operand pair, its word, and its corner cases. -/
def Obligations.GfmulWritesTheProduct : Prop :=
  (∀ s : State, InFlight s → exec .gfmul s = .next
    { s with status := s.status.okAfter,
             results := { s.results with result := (gfmul s.operands.opa s.operands.opb).setWidth 18, rlen := 8#5 } }) ∧
  encode .gfmul = 1#32 ∧
  (∀ a : Byte, gfmul 0#8 a = 0#8 ∧ gfmul a 0#8 = 0#8 ∧ gfmul 1#8 a = a ∧ gfmul a 1#8 = a) ∧
  (∀ a b : Byte, gfmul a b = gfmul b a) ∧
  (∀ a b : Byte, a ≠ 0#8 → b ≠ 0#8 → gfmul a b = expAt (((logAt a).toNat + (logAt b).toNat) % 255)) ∧
  gfmul 0x8E#8 2#8 = 1#8 ∧ gfmul 2#8 2#8 = 4#8

/-- R124: GF2MUL is the AND of the operands: eight GF(2) products, one per bit. -/
def Obligations.Gf2mulWritesTheBitwiseAnd : Prop :=
  (∀ s : State, InFlight s → ∃ r : BitVec 18,
    exec .gf2mul s = .next { s with status := s.status.okAfter, results := { s.results with result := r, rlen := 8#5 } } ∧
    (∀ k : Nat, r.getLsbD k = (s.operands.opa.getLsbD k && s.operands.opb.getLsbD k)) ∧
    (s.operands.opa = s.operands.opb → r = s.operands.opa.setWidth 18) ∧
    (s.operands.opa = 0#8 ∨ s.operands.opb = 0#8 → r = 0#18)) ∧
  encode .gf2mul = 2#32 ∧ (0b11001010#8 &&& 0b10100110#8) = 0x82#8

/-- R125: GFLOG gives LOG of a nonzero operand, and LOG_ZERO with RESULT and RLEN unchanged on zero. -/
def Obligations.GflogWritesTheLogarithm : Prop :=
  (∀ s : State, InFlight s → s.operands.opa ≠ 0#8 → exec .gflog s = .next
    { s with status := s.status.okAfter,
             results := { s.results with result := (logAt s.operands.opa).setWidth 18, rlen := 8#5 } }) ∧
  (∀ s : State, InFlight s → s.operands.opa = 0#8 →
    exec .gflog s = .next { s with status := s.status.errAfter .logZero }) ∧
  (∀ v : Byte, v ≠ 0#8 → (logAt v).toNat ≤ 254) ∧
  encode .gflog = 3#32 ∧ logAt 1#8 = 0#8 ∧ logAt 0x1D#8 = 8#8

/-- R126: GFEXP gives EXP of every operand; the result is never 0. -/
def Obligations.GfexpWritesThePower : Prop :=
  (∀ s : State, InFlight s → exec .gfexp s = .next
    { s with status := s.status.okAfter,
             results := { s.results with result := (expAt s.operands.opa.toNat).setWidth 18, rlen := 8#5 } }) ∧
  (∀ e : Byte, expAt e.toNat ≠ 0#8) ∧
  encode .gfexp = 4#32 ∧ expAt 255 = 1#8 ∧ expAt 0 = 1#8 ∧ expAt 8 = 0x1D#8

/-! Reed-Solomon (R140 to R147). -/

/-- R141: RSGEN writes gen(ECC) into GBUF[0..ECC] and ECC into GEN_DEG and touches nothing else; ECC_RANGE outside 1..30. -/
def Obligations.RsgenWritesTheGenerator : Prop :=
  (∀ s : State, InFlight s → 1 ≤ s.operands.ecc.toNat → s.operands.ecc.toNat ≤ 30 → ∃ g : Vector Byte 31,
    exec .rsgen s = .next { s with status := s.status.okAfter, results := { s.results with gbuf := g, genDeg := s.operands.ecc } } ∧
    g.toList.take (s.operands.ecc.toNat + 1) = genPoly s.operands.ecc.toNat ∧
    ∀ j : Fin 31, s.operands.ecc.toNat < j.val → g[j] = s.results.gbuf[j]) ∧
  (∀ s : State, InFlight s → (s.operands.ecc.toNat = 0 ∨ 30 < s.operands.ecc.toNat) →
    exec .rsgen s = .next { s with status := s.status.errAfter .eccRange }) ∧
  encode .rsgen = 5#32 ∧ genPoly 1 = [1#8, 1#8] ∧ (genPoly 30).length = 31 ∧
  genPoly 7 = [1#8, 127#8, 122#8, 154#8, 164#8, 11#8, 68#8, 117#8]

/-- R142: gen(e) is the product of x + alpha^i for i in 0..e-1, monic of degree e, zero at those alpha^i, with the constant
term the rule gives, and for e in 1..30 without a zero coefficient. -/
def Obligations.GeneratorHasTheConsecutiveRoots : Prop :=
  genPoly 1 = [1#8, expAt 0] ∧
  (∀ e : Nat, 1 ≤ e → e < 255 → genPoly (e + 1) = polyMul (genPoly e) [1#8, expAt e]) ∧
  (∀ e : Nat, 1 ≤ e → e ≤ 255 →
    (genPoly e).length = e + 1 ∧ (genPoly e).head? = some 1#8 ∧
    (∀ i : Nat, i < e → polyEval (genPoly e) (expAt i) = 0#8) ∧
    (genPoly e).getLast? = some (expAt ((e * (e - 1) / 2) % 255))) ∧
  (∀ e : Nat, 1 ≤ e → e ≤ 30 → ∀ c ∈ genPoly e, c ≠ 0#8)

/-- R145: the remainder is always exactly e codewords, and an all-zero block gives e zero codewords. -/
def Obligations.RemainderHasEccCodewords : Prop :=
  ∀ g : List Byte, g ≠ [] →
    (∀ d : List Byte, (rsrem d g).length = g.length - 1) ∧
    (∀ n : Nat, rsrem (List.replicate n 0#8) g = List.replicate (g.length - 1) 0#8)

/-- R144, R145: rsrem is the source's strip-leading-zeros division, padded to e codewords, for every monic divisor. -/
def Obligations.RemainderAgreesWithTheStrippingLoop : Prop :=
  ∀ d g : List Byte, g.head? = some 1#8 → 2 ≤ g.length → rsrem d g = stripRemainder d g

/-- R147: a block followed by its remainder is a multiple of gen(e) and so zero at alpha^0..alpha^(e-1). -/
def Obligations.BlockWithRemainderIsACodeword : Prop :=
  ∀ (e : Nat) (d : List Byte), 1 ≤ e → e ≤ 255 → d ≠ [] →
    (∃ q : List Byte, q.length = d.length ∧ polyMul q (genPoly e) = d ++ rsrem d (genPoly e)) ∧
    ∀ i : Nat, i < e → polyEval (d ++ rsrem d (genPoly e)) (expAt i) = 0#8

/-- R147: the remainder is linear: the remainder of the XOR of two blocks is the XOR of their remainders. -/
def Obligations.RemainderIsLinear : Prop :=
  ∀ d₁ d₂ g : List Byte, d₁.length = d₂.length → g ≠ [] →
    rsrem (List.zipWith (· ^^^ ·) d₁ d₂) g = List.zipWith (· ^^^ ·) (rsrem d₁ g) (rsrem d₂ g)

/-- R146: RSREM writes the remainder of DBUF[0..LEN-1] by GBUF[0..ECC] into RBUF[0..ECC-1] and ECC into REM_CNT and touches
nothing else; its three errors in their order; its corner cases and example. -/
def Obligations.RsremWritesTheRemainder : Prop :=
  (∀ s : State, InFlight s → 1 ≤ s.operands.ecc.toNat → s.operands.ecc.toNat ≤ 30 → 1 ≤ s.operands.len.toNat →
    s.operands.len.toNat ≤ 256 → s.results.genDeg = s.operands.ecc → ∃ r : Vector Byte 30,
    exec .rsrem s = .next { s with status := s.status.okAfter, results := { s.results with rbuf := r, remCnt := s.operands.ecc } } ∧
    r.toList.take s.operands.ecc.toNat =
      rsrem (s.operands.dbuf.toList.take s.operands.len.toNat) (s.results.gbuf.toList.take (s.operands.ecc.toNat + 1)) ∧
    ∀ k : Fin 30, s.operands.ecc.toNat ≤ k.val → r[k] = s.results.rbuf[k]) ∧
  (∀ s : State, InFlight s → (s.operands.ecc.toNat = 0 ∨ 30 < s.operands.ecc.toNat) →
    exec .rsrem s = .next { s with status := s.status.errAfter .eccRange }) ∧
  (∀ s : State, InFlight s → 1 ≤ s.operands.ecc.toNat → s.operands.ecc.toNat ≤ 30 →
    (s.operands.len.toNat = 0 ∨ 256 < s.operands.len.toNat) →
    exec .rsrem s = .next { s with status := s.status.errAfter .lenRange }) ∧
  (∀ s : State, InFlight s → 1 ≤ s.operands.ecc.toNat → s.operands.ecc.toNat ≤ 30 → 1 ≤ s.operands.len.toNat →
    s.operands.len.toNat ≤ 256 → s.results.genDeg ≠ s.operands.ecc →
    exec .rsrem s = .next { s with status := s.status.errAfter .noGen }) ∧
  encode .rsrem = 6#32 ∧
  (∀ d g : List Byte, d ≠ [] → g.head? = some 1#8 → rsrem (0#8 :: d) g = rsrem d g) ∧
  (∀ (n : Nat) (g : List Byte), g ≠ [] → rsrem (List.replicate n 0#8) g = List.replicate (g.length - 1) 0#8) ∧
  rsrem [32#8, 91#8, 11#8, 120#8, 209#8, 114#8, 220#8, 77#8, 67#8, 64#8, 236#8, 17#8, 236#8, 17#8, 236#8, 17#8] (genPoly 10) =
    [196#8, 35#8, 39#8, 119#8, 235#8, 215#8, 231#8, 226#8, 93#8, 23#8]

/-- R183: of several errors the first in the order ILLEGAL_OP, ECC_RANGE, LEN_RANGE, NO_GEN is reported. -/
def Obligations.ErrorPriorityIsFixed : Prop :=
  (∀ s : State, InFlight s → s.unitTurn = true → (∀ i : Instr, s.lcmd ≠ encode i) →
    step s = .next { s with status := s.status.errAfter .illegalOp }) ∧
  (∀ s : State, InFlight s → (s.operands.ecc.toNat = 0 ∨ 30 < s.operands.ecc.toNat) →
    exec .rsrem s = .next { s with status := s.status.errAfter .eccRange }) ∧
  (∀ s : State, InFlight s → ¬(s.operands.ecc.toNat = 0 ∨ 30 < s.operands.ecc.toNat) →
    (s.operands.len.toNat = 0 ∨ 256 < s.operands.len.toNat) →
    exec .rsrem s = .next { s with status := s.status.errAfter .lenRange }) ∧
  (∀ s : State, InFlight s → ¬(s.operands.ecc.toNat = 0 ∨ 30 < s.operands.ecc.toNat) →
    ¬(s.operands.len.toNat = 0 ∨ 256 < s.operands.len.toNat) → s.results.genDeg ≠ s.operands.ecc →
    exec .rsrem s = .next { s with status := s.status.errAfter .noGen })

/-- R213: after reset RSREM cannot use the unspecified GBUF: GEN_DEG = 0 raises NO_GEN for every ECC in range. -/
def Obligations.RsremAfterResetRaisesNoGen : Prop :=
  ∀ (s₀ s : State), s.results = s₀.resetUnit.results → InFlight s →
    1 ≤ s.operands.ecc.toNat → s.operands.ecc.toNat ≤ 30 → 1 ≤ s.operands.len.toNat → s.operands.len.toNat ≤ 256 →
    exec .rsrem s = .next { s with status := s.status.errAfter .noGen }

/-! BCH strings (R160 to R165). -/

/-- R160: bchrem(v, G) is the remainder: below 2^deg(G), and v is a multiple of G plus it. -/
def Obligations.BchremIsTheRemainder : Prop :=
  ∀ v g : Nat, g ≠ 0 → bchrem v g < 2 ^ (bitlen g - 1) ∧ ∃ q : Nat, v = clmul q g ^^^ bchrem v g

/-- R165: before the mask a format string is a multiple of its generator and carries its five data bits, and so is and does a
version string; the 32 and the 34 strings are pairwise distinct. -/
def Obligations.BchStringsAreCodewords : Prop :=
  (∀ c m : Nat, c ≤ 3 → m ≤ 7 → bchrem (fmtstr c m ^^^ 0x5412) 0b10100110111 = 0 ∧
    (fmtstr c m ^^^ 0x5412) / 2 ^ 10 = (c <<< 3) ||| m) ∧
  (∀ v : Nat, 7 ≤ v → v ≤ 40 → bchrem (verstr v) 0b1111100100101 = 0 ∧ verstr v / 2 ^ 12 = v) ∧
  (∀ c m c' m' : Nat, c ≤ 3 → m ≤ 7 → c' ≤ 3 → m' ≤ 7 → fmtstr c m = fmtstr c' m' → c = c' ∧ m = m') ∧
  (∀ v v' : Nat, 7 ≤ v → v ≤ 40 → 7 ≤ v' → v' ≤ 40 → verstr v = verstr v' → v = v')

/-- R162: BCHFMT writes the format string with RLEN 15 for an ECL code 0..3 and a mask 0..7, else FMT_RANGE. -/
def Obligations.BchfmtWritesTheFormatString : Prop :=
  (∀ s : State, InFlight s → s.operands.opa.toNat ≤ 3 → s.operands.opb.toNat ≤ 7 → ∃ r : BitVec 18,
    exec .bchfmt s = .next { s with status := s.status.okAfter, results := { s.results with result := r, rlen := 15#5 } } ∧
    r.toNat = fmtstr s.operands.opa.toNat s.operands.opb.toNat ∧ r ≠ 0#18 ∧ r.toNat < 2 ^ 15) ∧
  (∀ s : State, InFlight s → (3 < s.operands.opa.toNat ∨ 7 < s.operands.opb.toNat) →
    exec .bchfmt s = .next { s with status := s.status.errAfter .fmtRange }) ∧
  encode .bchfmt = 7#32 ∧ fmtstr 0 0 = 0x5412 ∧ fmtstr 1 0 = 0x77C4

/-- R164: BCHVER writes the version string with RLEN 18 for versions 7..40, the empty string (0, 0) for 1..6, else
VER_RANGE. -/
def Obligations.BchverWritesTheVersionString : Prop :=
  (∀ s : State, InFlight s → 7 ≤ s.operands.opa.toNat → s.operands.opa.toNat ≤ 40 → ∃ r : BitVec 18,
    exec .bchver s = .next { s with status := s.status.okAfter, results := { s.results with result := r, rlen := 18#5 } } ∧
    r.toNat = verstr s.operands.opa.toNat) ∧
  (∀ s : State, InFlight s → 1 ≤ s.operands.opa.toNat → s.operands.opa.toNat ≤ 6 →
    exec .bchver s = .next { s with status := s.status.okAfter, results := { s.results with result := 0#18, rlen := 0#5 } }) ∧
  (∀ s : State, InFlight s → (s.operands.opa.toNat = 0 ∨ 40 < s.operands.opa.toNat) →
    exec .bchver s = .next { s with status := s.status.errAfter .verRange }) ∧
  encode .bchver = 8#32 ∧ verstr 7 = 0x07C94

/-! The bus (R50 to R60). -/

/-- R50, U5: the window is the 4096 byte offsets above a 4 KiB-aligned base, whatever base the platform chooses. -/
def Obligations.WindowIsFourKiBAtTheBase : Prop :=
  gfrbBase % 4096 = 0 ∧ (∀ off : BitVec 12, windowOffset (hostAddress off) = some off) ∧
  (∀ (addr : Nat) (off : BitVec 12), windowOffset addr = some off → addr = hostAddress off)

/-- R51: every location has its own aligned offset, and an aligned offset has a location exactly when it is not reserved. -/
def Obligations.AddressMapIsOneToOne : Prop :=
  (∀ l : Loc, locAt l.offset = some l ∧ l.offset.toNat % 4 = 0) ∧
  (∀ (off : BitVec 12) (l : Loc), off.toNat % 4 = 0 → locAt off = some l → l.offset = off) ∧
  (∀ off : BitVec 12, off.toNat % 4 = 0 → (locAt off = none ↔ Reserved off))

/-- R22, R23: ID and CAP read their constants in every state, and a write to either changes no register with BUSY = 0. -/
def Obligations.IdAndCapAreConstant : Prop :=
  (∀ s : State, s.respond (wordRead 0x000#12) = .data 0x47465242#32 ∧ s.respond (wordRead 0x004#12) = .data 0x0100001E#32) ∧
  (∀ (s : State) (w : Word), s.status.busy = false →
    s.access (wordWrite 0x000#12 w) = s ∧ s.access (wordWrite 0x004#12 w) = s) ∧
  (0x0100001E#32).toNat % 2 ^ 8 = 30 ∧ (0x0100001E#32).toNat / 2 ^ 16 % 2 ^ 9 = 256

/-- R52, R53: an access that is misaligned, has fewer than four lanes or is a burst gets a bus error, changes no state of the
unit and gives the host no data; every other access is served. That the host records the response and goes on to its next
statement is the model's choice (log entry 4, DESIGN CHOICE). -/
def Obligations.BusErrorsChangeNothing : Prop :=
  (∀ (s : State) (a : Access), (a.offset.toNat % 4 ≠ 0 ∨ a.lanes ≠ 0b1111#4 ∨ 0 < a.more) →
    s.access a = s ∧ s.respond a = .busError a.offset ∧
    ∀ t : Nat, s.hostStmt (.raw a t) =
      .next { s with host := { s.host with pc := s.host.pc + 1, resp := some (.busError a.offset) } }) ∧
  (∀ (s : State) (a : Access), a.offset.toNat % 4 = 0 → a.lanes = 0b1111#4 → a.more = 0 →
    ∀ off : BitVec 12, s.respond a ≠ .busError off)

/-- R56: what an aligned read returns, location by location, in range draws of the result state while BUSY = 1, and that a read
moves nothing but the model's draw counter, by at most one and only with BUSY = 1. That a draw is `Config.freeValue` at the
draw counter, and the counter's move, are the model's choice (log entry 1, DESIGN CHOICE). -/
def Obligations.AlignedReadsReturnTheLocation : Prop :=
  (∀ s : State, (s.readWord 0x000#12).toNat = 0x47465242 ∧ (s.readWord 0x004#12).toNat = 0x0100001E ∧
    s.readWord 0x008#12 = 0#32 ∧ s.readWord 0x00C#12 = s.status.word ∧
    (s.readWord 0x010#12).toNat = (if s.ie then 1 else 0) ∧ (s.readWord 0x014#12).toNat = s.operands.opa.toNat ∧
    (s.readWord 0x018#12).toNat = s.operands.opb.toNat ∧ (s.readWord 0x01C#12).toNat = s.operands.ecc.toNat ∧
    (s.readWord 0x020#12).toNat = s.operands.len.toNat ∧
    ∀ i : Fin 256, (s.readWord (BitVec.ofNat 12 (0x400 + 4 * i.val))).toNat = s.operands.dbuf[i].toNat) ∧
  (∀ s : State, s.status.busy = false → (s.readWord 0x024#12).toNat = s.results.result.toNat ∧
    (s.readWord 0x028#12).toNat = s.results.rlen.toNat ∧ (s.readWord 0x02C#12).toNat = s.results.genDeg.toNat ∧
    (s.readWord 0x030#12).toNat = s.results.remCnt.toNat ∧
    (∀ j : Fin 31, (s.readWord (BitVec.ofNat 12 (0x800 + 4 * j.val))).toNat = s.results.gbuf[j].toNat) ∧
    ∀ k : Fin 30, (s.readWord (BitVec.ofNat 12 (0xC00 + 4 * k.val))).toNat = s.results.rbuf[k].toNat) ∧
  (∀ s : State, s.status.busy = true →
    (s.readWord 0x024#12).toNat = (Config.freeValue s.sched.draws).toNat % 2 ^ 18 ∧
    (s.readWord 0x028#12).toNat = (Config.freeValue s.sched.draws).toNat % 2 ^ 5 ∧
    (s.readWord 0x02C#12).toNat = (Config.freeValue s.sched.draws).toNat % 2 ^ 8 ∧
    (s.readWord 0x030#12).toNat = (Config.freeValue s.sched.draws).toNat % 2 ^ 8 ∧
    (∀ j : Fin 31, (s.readWord (BitVec.ofNat 12 (0x800 + 4 * j.val))).toNat = (Config.freeValue s.sched.draws).toNat % 2 ^ 8) ∧
    ∀ k : Fin 30, (s.readWord (BitVec.ofNat 12 (0xC00 + 4 * k.val))).toNat = (Config.freeValue s.sched.draws).toNat % 2 ^ 8) ∧
  (∀ (s : State) (off : BitVec 12), Reserved off → s.readWord off = 0#32) ∧
  (∀ (s : State) (off : BitVec 12), off.toNat % 4 = 0 →
    s.respond (wordRead off) = .data (s.readWord off) ∧
    (s.access (wordRead off) = s ∨ (s.status.busy = true ∧
      s.access (wordRead off) = { s with sched := { s.sched with draws := s.sched.draws + 1 } })))

/-- R57: an aligned write with BUSY = 0, location by location. -/
def Obligations.AlignedWritesStoreTheLowBits : Prop :=
  ∀ (s : State) (w : Word), s.status.busy = false →
    ((s.access (wordWrite 0x008#12 w)).lcmd = w ∧ (s.access (wordWrite 0x008#12 w)).status = s.status.issue) ∧
    s.access (wordWrite 0x00C#12 w) = { s with status := s.status.clear w } ∧
    s.access (wordWrite 0x010#12 w) = { s with ie := w.getLsbD 0 } ∧
    s.access (wordWrite 0x014#12 w) = { s with operands := { s.operands with opa := BitVec.ofNat 8 w.toNat } } ∧
    s.access (wordWrite 0x018#12 w) = { s with operands := { s.operands with opb := BitVec.ofNat 8 w.toNat } } ∧
    s.access (wordWrite 0x01C#12 w) = { s with operands := { s.operands with ecc := BitVec.ofNat 8 w.toNat } } ∧
    s.access (wordWrite 0x020#12 w) = { s with operands := { s.operands with len := BitVec.ofNat 9 w.toNat } } ∧
    (∀ i : Fin 256, ∃ b : Vector Byte 256,
      s.access (wordWrite (BitVec.ofNat 12 (0x400 + 4 * i.val)) w) = { s with operands := { s.operands with dbuf := b } } ∧
      ∀ j : Fin 256, b[j] = if j = i then BitVec.ofNat 8 w.toNat else s.operands.dbuf[j]) ∧
    (∀ off : BitVec 12, ReadOnly off ∨ Reserved off → s.access (wordWrite off w) = s)

/-- R58: with BUSY = 1 an aligned write to any offset but STATUS and IRQ_EN is dropped and sets WBUSY; those two act as with
BUSY = 0; no access changes the operand state or the command in flight. -/
def Obligations.WritesWhileBusyAreDropped : Prop :=
  ∀ (s : State), s.status.busy = true →
    (∀ (off : BitVec 12) (w : Word), off.toNat % 4 = 0 → off ≠ 0x00C#12 → off ≠ 0x010#12 →
      s.access (wordWrite off w) = { s with status := { s.status with wbusy := true } }) ∧
    (∀ w : Word, s.access (wordWrite 0x00C#12 w) = { s with status := s.status.clear w } ∧
      s.access (wordWrite 0x010#12 w) = { s with ie := w.getLsbD 0 }) ∧
    (∀ a : Access, (s.access a).operands = s.operands ∧ (s.access a).lcmd = s.lcmd ∧ (s.access a).status.busy = true)

/-- R55: reserved words read 0, and a write there changes no state but for WBUSY when BUSY = 1. -/
def Obligations.ReservedWordsReadZeroIgnoreWrites : Prop :=
  ∀ (s : State) (off : BitVec 12) (w : Word), Reserved off →
    s.respond (wordRead off) = .data 0#32 ∧ s.access (wordRead off) = s ∧
    (s.status.busy = false → s.access (wordWrite off w) = s) ∧
    (s.status.busy = true → s.access (wordWrite off w) = { s with status := { s.status with wbusy := true } })

/-! STATUS and the interrupt (R25, R26, R44, R186, R187). -/

/-- R25, R181: the layout of the STATUS word and the error codes. -/
def Obligations.StatusWordHasItsFields : Prop :=
  (∀ st : Status, st.word.toNat = (if st.busy then 1 else 0) + 2 * (if st.done then 1 else 0) + 4 * (if st.err then 1 else 0) +
    8 * (if st.wbusy then 1 else 0) + 256 * st.errcode.bits.toNat) ∧
  ErrCode.bits .noError = 0#4 ∧ ErrCode.bits .illegalOp = 1#4 ∧ ErrCode.bits .logZero = 2#4 ∧ ErrCode.bits .eccRange = 3#4 ∧
  ErrCode.bits .lenRange = 4#4 ∧ ErrCode.bits .noGen = 5#4 ∧ ErrCode.bits .fmtRange = 6#4 ∧ ErrCode.bits .verRange = 7#4

/-- R26: a write of w to STATUS, whether BUSY is 0 or 1: bit 1 clears DONE, ERR and ERRCODE, bit 3 clears WBUSY, all other
bits are ignored. -/
def Obligations.StatusWriteClearsFlags : Prop :=
  ∀ (s : State) (w : Word), ∃ st : Status, s.access (wordWrite 0x00C#12 w) = { s with status := st } ∧
    st.busy = s.status.busy ∧
    (w.getLsbD 1 = true → st.done = false ∧ st.err = false ∧ st.errcode = .noError) ∧
    (w.getLsbD 1 = false → st.done = s.status.done ∧ st.err = s.status.err ∧ st.errcode = s.status.errcode) ∧
    (w.getLsbD 3 = true → st.wbusy = false) ∧ (w.getLsbD 3 = false → st.wbusy = s.status.wbusy)

/-- R186: a STATUS write with bit 1 set, or the next issue, acknowledges an error; ERRCODE describes only the last completed
command. -/
def Obligations.ErrorsAreAcknowledged : Prop :=
  (∀ (s : State) (w : Word), w.getLsbD 1 = true →
    (s.access (wordWrite 0x00C#12 w)).status.done = false ∧ (s.access (wordWrite 0x00C#12 w)).status.err = false ∧
    (s.access (wordWrite 0x00C#12 w)).status.errcode = .noError) ∧
  (∀ (s : State) (w : Word), s.status.busy = false →
    (s.access (wordWrite 0x008#12 w)).status.done = false ∧ (s.access (wordWrite 0x008#12 w)).status.err = false ∧
    (s.access (wordWrite 0x008#12 w)).status.errcode = .noError) ∧
  (∀ (s : State) (i : Instr) (c : ErrCode) (w : Word), s.status.busy = false →
    exec i (s.access (wordWrite 0x008#12 w)) =
      exec i (State.access { s with status := { s.status with done := true, err := true, errcode := c } } (wordWrite 0x008#12 w)))

/-- R44, R187: irq = IE & DONE; masking with IE = 0 lowers it and keeps DONE; a STATUS write with bit 1 set or an issue lowers
it; a completion with or without error raises it when IE is 1. -/
def Obligations.IrqFollowsIeAndDone : Prop :=
  (∀ s : State, s.irq = (s.ie && s.status.done)) ∧
  (∀ (s : State) (w : Word), w.getLsbD 0 = false →
    (s.access (wordWrite 0x010#12 w)).irq = false ∧ (s.access (wordWrite 0x010#12 w)).status = s.status) ∧
  (∀ (s : State) (w : Word), w.getLsbD 1 = true → (s.access (wordWrite 0x00C#12 w)).irq = false) ∧
  (∀ (s : State) (w : Word), s.status.busy = false → (s.access (wordWrite 0x008#12 w)).irq = false) ∧
  (∀ s t : State, s.unitTurn = true → step s = .next t → t.irq = s.ie)

/-! Reset (R45, R210). -/

/-- R210, R45: a reset is one step that sets every register to its reset value and abandons a command in flight: DONE stays
0, irq does not rise, and none of the command's writes is applied. Buffer entries and LCMD are unspecified, so nothing is
said of them. That a reset is a statement of the host program, met off the unit's turn, and that the host only moves on
past it and otherwise stays, is the model's choice (log entry 12, DESIGN CHOICE). -/
def Obligations.ResetSetsEveryRegister : Prop :=
  (∀ s : State, s.unitTurn = false → s.host.prog[s.host.pc]? = some .rst → ∃ t : State, step s = .next t ∧
    t.status.word = 0#32 ∧ t.ie = false ∧ t.irq = false ∧ t.operands.opa = 0#8 ∧ t.operands.opb = 0#8 ∧
    t.operands.ecc = 0#8 ∧ t.operands.len = 0#9 ∧ t.results.result = 0#18 ∧ t.results.rlen = 0#5 ∧
    t.results.genDeg = 0#8 ∧ t.results.remCnt = 0#8 ∧ t.host = { s.host with pc := s.host.pc + 1 }) ∧
  (State.reset.status.word = 0#32 ∧ State.reset.ie = false ∧ State.reset.irq = false ∧ State.reset.operands.opa = 0#8 ∧
    State.reset.operands.opb = 0#8 ∧ State.reset.operands.ecc = 0#8 ∧ State.reset.operands.len = 0#9 ∧
    State.reset.results.result = 0#18 ∧ State.reset.results.rlen = 0#5 ∧ State.reset.results.genDeg = 0#8 ∧
    State.reset.results.remCnt = 0#8)

/-! The whole machine. -/

/-- R25, R33, R34, R46: every step keeps the legal STATUS combinations, RESULT within RLEN bits, and the generator that
GEN_DEG names in GBUF. -/
def Obligations.StepsKeepTheInvariant : Prop :=
  ∀ s t : State, s.Inv → step s = .next t → t.Inv

/-- The invariant holds at reset. -/
def Obligations.ResetMeetsTheInvariant : Prop := State.reset.Inv

/-- R32: only the completion of a command and reset write the result state; host writes to it are ignored. -/
def Obligations.OnlyCompletionAndResetWriteResults : Prop :=
  (∀ s t : State, step s = .next t → t.results ≠ s.results →
    (s.unitTurn = true ∧ s.status.busy = true ∧ t.status.busy = false ∧ t.status.done = true) ∨
    (s.unitTurn = false ∧ s.host.prog[s.host.pc]? = some .rst)) ∧
  (∀ (s : State) (a : Access), (s.access a).results = s.results)

/-- R104, R58: while a command is in flight no step but a reset changes the operand state, LCMD or the result state it will
complete with. -/
def Obligations.OperandsAreFrozenInFlight : Prop :=
  ∀ s t : State, s.status.busy = true → step s = .next t → (s.unitTurn = true ∨ s.host.prog[s.host.pc]? ≠ some .rst) →
    t.operands = s.operands ∧ t.lcmd = s.lcmd ∧ (t.status.busy = true → t.results = s.results)

/-- R105, U4: whatever the delay and the host program, a command in flight is over within finitely many steps: at most the
remaining delay plus one. The delay, counted in host steps, is the model's form of LATENCY (log entry 3, DESIGN CHOICE). -/
def Obligations.CommandsInFlightComplete : Prop :=
  ∀ s : State, labelsDefined s.host.prog = true → s.status.busy = true →
    ∃ (k : Nat) (t : State), k ≤ s.sched.wait + 1 ∧ Host.Core.run Sys2Proof.core k s = .next t ∧ t.status.busy = false

/-- R180: the unit takes no traps: with a host program whose branches all have their label, every step answers a next state,
and the host program stays the same. -/
def Obligations.StepsNeverStop : Prop :=
  ∀ s : State, labelsDefined s.host.prog = true → ∃ t : State, step s = .next t ∧ t.host.prog = s.host.prog

/-! The host program (R86, R87). -/

/-- R86, R87: WR, RD, ISSUE, label and BNE do the bus access or the branch they stand for. -/
def Obligations.HostStatementsDoTheirAccess : Prop :=
  (∀ (s : State) (l : Loc) (v : Word), s.hostStmt (.wr l v) = .next
    { s.access (wordWrite l.offset v) with host := { s.host with pc := s.host.pc + 1, resp := some .ack } }) ∧
  (∀ (s : State) (l : Loc) (t : Nat), ∃ s' : State, s.hostStmt (.rd l t) = .next s' ∧
    getTemp s'.host.temps t = s.readWord l.offset ∧ (∀ u : Nat, u ≠ t → getTemp s'.host.temps u = getTemp s.host.temps u) ∧
    s'.host.pc = s.host.pc + 1 ∧ s'.status = s.status ∧ s'.operands = s.operands ∧ s'.results = s.results) ∧
  (∀ (s : State) (i : Instr), s.hostStmt (.issue i) = s.hostStmt (.wr .cmd (encode i))) ∧
  (∀ (s : State) (w : Word), s.hostStmt (.issueWord w) = s.hostStmt (.wr .cmd w)) ∧
  (∀ (s : State) (n : Nat), s.hostStmt (.label n) = .next { s with host := { s.host with pc := s.host.pc + 1 } }) ∧
  (∀ (s : State) (t : Nat) (m v : Word) (n k : Nat), getTemp s.host.temps t &&& m ≠ v → labelIndex s.host.prog n = some k →
    s.hostStmt (.bne t m v n) = .next { s with host := { s.host with pc := k } } ∧ s.host.prog[k]? = some (.label n)) ∧
  (∀ (s : State) (t : Nat) (m v : Word) (n : Nat), getTemp s.host.temps t &&& m = v →
    s.hostStmt (.bne t m v n) = .next { s with host := { s.host with pc := s.host.pc + 1 } })
end

