-- ==== Sys2Proof/Laws/State.lean ====
section
/-! SUPPORT. One lemma per field per named update, so that no later proof unfolds a record update. -/

namespace Sys2Proof.Machine

/-! State. -/

@[simp] theorem State.completeOk_status (s : State) (r : Results) : (s.completeOk r).status = s.status.complete := rfl
@[simp] theorem State.completeOk_ie (s : State) (r : Results) : (s.completeOk r).ie = s.ie := rfl
@[simp] theorem State.completeOk_operands (s : State) (r : Results) : (s.completeOk r).operands = s.operands := rfl
@[simp] theorem State.completeOk_results (s : State) (r : Results) : (s.completeOk r).results = r := rfl
@[simp] theorem State.completeOk_lcmd (s : State) (r : Results) : (s.completeOk r).lcmd = s.lcmd := rfl
@[simp] theorem State.completeOk_sched (s : State) (r : Results) : (s.completeOk r).sched = s.sched := rfl
@[simp] theorem State.completeOk_host (s : State) (r : Results) : (s.completeOk r).host = s.host := rfl

@[simp] theorem State.takeError_status (s : State) (c : ErrCode) : (s.takeError c).status = (s.status.error c).complete := rfl
@[simp] theorem State.takeError_ie (s : State) (c : ErrCode) : (s.takeError c).ie = s.ie := rfl
@[simp] theorem State.takeError_operands (s : State) (c : ErrCode) : (s.takeError c).operands = s.operands := rfl
@[simp] theorem State.takeError_results (s : State) (c : ErrCode) : (s.takeError c).results = s.results := rfl
@[simp] theorem State.takeError_lcmd (s : State) (c : ErrCode) : (s.takeError c).lcmd = s.lcmd := rfl
@[simp] theorem State.takeError_sched (s : State) (c : ErrCode) : (s.takeError c).sched = s.sched := rfl
@[simp] theorem State.takeError_host (s : State) (c : ErrCode) : (s.takeError c).host = s.host := rfl

@[simp] theorem State.acknowledge_status (s : State) (w : Word) : (s.acknowledge w).status = s.status.clear w := rfl
@[simp] theorem State.acknowledge_ie (s : State) (w : Word) : (s.acknowledge w).ie = s.ie := rfl
@[simp] theorem State.acknowledge_operands (s : State) (w : Word) : (s.acknowledge w).operands = s.operands := rfl
@[simp] theorem State.acknowledge_results (s : State) (w : Word) : (s.acknowledge w).results = s.results := rfl
@[simp] theorem State.acknowledge_lcmd (s : State) (w : Word) : (s.acknowledge w).lcmd = s.lcmd := rfl
@[simp] theorem State.acknowledge_sched (s : State) (w : Word) : (s.acknowledge w).sched = s.sched := rfl
@[simp] theorem State.acknowledge_host (s : State) (w : Word) : (s.acknowledge w).host = s.host := rfl

@[simp] theorem State.dropWrite_status (s : State) : (s.dropWrite).status = s.status.drop := rfl
@[simp] theorem State.dropWrite_ie (s : State) : (s.dropWrite).ie = s.ie := rfl
@[simp] theorem State.dropWrite_operands (s : State) : (s.dropWrite).operands = s.operands := rfl
@[simp] theorem State.dropWrite_results (s : State) : (s.dropWrite).results = s.results := rfl
@[simp] theorem State.dropWrite_lcmd (s : State) : (s.dropWrite).lcmd = s.lcmd := rfl
@[simp] theorem State.dropWrite_sched (s : State) : (s.dropWrite).sched = s.sched := rfl
@[simp] theorem State.dropWrite_host (s : State) : (s.dropWrite).host = s.host := rfl

@[simp] theorem State.issueAfter_status (s : State) (w : Word) (n : Nat) (sc : Schedule) : (s.issueAfter w n sc).status = s.status.issue := rfl
@[simp] theorem State.issueAfter_ie (s : State) (w : Word) (n : Nat) (sc : Schedule) : (s.issueAfter w n sc).ie = s.ie := rfl
@[simp] theorem State.issueAfter_operands (s : State) (w : Word) (n : Nat) (sc : Schedule) : (s.issueAfter w n sc).operands = s.operands := rfl
@[simp] theorem State.issueAfter_results (s : State) (w : Word) (n : Nat) (sc : Schedule) : (s.issueAfter w n sc).results = s.results := rfl
@[simp] theorem State.issueAfter_lcmd (s : State) (w : Word) (n : Nat) (sc : Schedule) : (s.issueAfter w n sc).lcmd = w := rfl
@[simp] theorem State.issueAfter_sched (s : State) (w : Word) (n : Nat) (sc : Schedule) : (s.issueAfter w n sc).sched = { sc with wait := n } := rfl
@[simp] theorem State.issueAfter_host (s : State) (w : Word) (n : Nat) (sc : Schedule) : (s.issueAfter w n sc).host = s.host := rfl

@[simp] theorem State.issueNow_status (s : State) (w : Word) : (s.issueNow w).status = s.status.issue := rfl
@[simp] theorem State.issueNow_ie (s : State) (w : Word) : (s.issueNow w).ie = s.ie := rfl
@[simp] theorem State.issueNow_operands (s : State) (w : Word) : (s.issueNow w).operands = s.operands := rfl
@[simp] theorem State.issueNow_results (s : State) (w : Word) : (s.issueNow w).results = s.results := rfl
@[simp] theorem State.issueNow_lcmd (s : State) (w : Word) : (s.issueNow w).lcmd = w := rfl
@[simp] theorem State.issueNow_sched (s : State) (w : Word) : (s.issueNow w).sched = { s.sched with wait := 0 } := rfl
@[simp] theorem State.issueNow_host (s : State) (w : Word) : (s.issueNow w).host = s.host := rfl

@[simp] theorem State.resetUnit_status (s : State) : (s.resetUnit).status = Status.reset := rfl
@[simp] theorem State.resetUnit_ie (s : State) : (s.resetUnit).ie = false := rfl
@[simp] theorem State.resetUnit_operands (s : State) : (s.resetUnit).operands = Operands.reset s.sched.draws := rfl
@[simp] theorem State.resetUnit_results (s : State) : (s.resetUnit).results = Results.reset s.sched.draws := rfl
@[simp] theorem State.resetUnit_lcmd (s : State) : (s.resetUnit).lcmd = Config.freeValue (s.sched.draws + 317) := rfl
@[simp] theorem State.resetUnit_sched (s : State) : (s.resetUnit).sched = { draws := s.sched.draws + resetDraws, wait := 0, latency := s.sched.latency } := rfl
@[simp] theorem State.resetUnit_host (s : State) : (s.resetUnit).host = s.host := rfl

/-! Result state (R32). -/

@[simp] theorem Results.writeResult_result (r : Results) (v : BitVec 18) (n : BitVec 5) : (r.writeResult v n).result = v := rfl
@[simp] theorem Results.writeResult_rlen (r : Results) (v : BitVec 18) (n : BitVec 5) : (r.writeResult v n).rlen = n := rfl
@[simp] theorem Results.writeResult_genDeg (r : Results) (v : BitVec 18) (n : BitVec 5) : (r.writeResult v n).genDeg = r.genDeg := rfl
@[simp] theorem Results.writeResult_remCnt (r : Results) (v : BitVec 18) (n : BitVec 5) : (r.writeResult v n).remCnt = r.remCnt := rfl
@[simp] theorem Results.writeResult_gbuf (r : Results) (v : BitVec 18) (n : BitVec 5) : (r.writeResult v n).gbuf = r.gbuf := rfl
@[simp] theorem Results.writeResult_rbuf (r : Results) (v : BitVec 18) (n : BitVec 5) : (r.writeResult v n).rbuf = r.rbuf := rfl

@[simp] theorem Results.writeGenerator_result (r : Results) (g : List Byte) (e : Byte) : (r.writeGenerator g e).result = r.result := rfl
@[simp] theorem Results.writeGenerator_rlen (r : Results) (g : List Byte) (e : Byte) : (r.writeGenerator g e).rlen = r.rlen := rfl
@[simp] theorem Results.writeGenerator_genDeg (r : Results) (g : List Byte) (e : Byte) : (r.writeGenerator g e).genDeg = e := rfl
@[simp] theorem Results.writeGenerator_remCnt (r : Results) (g : List Byte) (e : Byte) : (r.writeGenerator g e).remCnt = r.remCnt := rfl
@[simp] theorem Results.writeGenerator_gbuf (r : Results) (g : List Byte) (e : Byte) : (r.writeGenerator g e).gbuf = writePrefix r.gbuf g := rfl
@[simp] theorem Results.writeGenerator_rbuf (r : Results) (g : List Byte) (e : Byte) : (r.writeGenerator g e).rbuf = r.rbuf := rfl

@[simp] theorem Results.writeRemainder_result (r : Results) (d : List Byte) (e : Byte) : (r.writeRemainder d e).result = r.result := rfl
@[simp] theorem Results.writeRemainder_rlen (r : Results) (d : List Byte) (e : Byte) : (r.writeRemainder d e).rlen = r.rlen := rfl
@[simp] theorem Results.writeRemainder_genDeg (r : Results) (d : List Byte) (e : Byte) : (r.writeRemainder d e).genDeg = r.genDeg := rfl
@[simp] theorem Results.writeRemainder_remCnt (r : Results) (d : List Byte) (e : Byte) : (r.writeRemainder d e).remCnt = e := rfl
@[simp] theorem Results.writeRemainder_gbuf (r : Results) (d : List Byte) (e : Byte) : (r.writeRemainder d e).gbuf = r.gbuf := rfl
@[simp] theorem Results.writeRemainder_rbuf (r : Results) (d : List Byte) (e : Byte) : (r.writeRemainder d e).rbuf = writePrefix r.rbuf d := rfl

/-! Operand state (R13). -/

@[simp] theorem Operands.writeOpa_opa (o : Operands) (w : Word) : (o.writeOpa w).opa = w.setWidth 8 := rfl
@[simp] theorem Operands.writeOpa_opb (o : Operands) (w : Word) : (o.writeOpa w).opb = o.opb := rfl
@[simp] theorem Operands.writeOpa_ecc (o : Operands) (w : Word) : (o.writeOpa w).ecc = o.ecc := rfl
@[simp] theorem Operands.writeOpa_len (o : Operands) (w : Word) : (o.writeOpa w).len = o.len := rfl
@[simp] theorem Operands.writeOpa_dbuf (o : Operands) (w : Word) : (o.writeOpa w).dbuf = o.dbuf := rfl

@[simp] theorem Operands.writeOpb_opa (o : Operands) (w : Word) : (o.writeOpb w).opa = o.opa := rfl
@[simp] theorem Operands.writeOpb_opb (o : Operands) (w : Word) : (o.writeOpb w).opb = w.setWidth 8 := rfl
@[simp] theorem Operands.writeOpb_ecc (o : Operands) (w : Word) : (o.writeOpb w).ecc = o.ecc := rfl
@[simp] theorem Operands.writeOpb_len (o : Operands) (w : Word) : (o.writeOpb w).len = o.len := rfl
@[simp] theorem Operands.writeOpb_dbuf (o : Operands) (w : Word) : (o.writeOpb w).dbuf = o.dbuf := rfl

@[simp] theorem Operands.writeEcc_opa (o : Operands) (w : Word) : (o.writeEcc w).opa = o.opa := rfl
@[simp] theorem Operands.writeEcc_opb (o : Operands) (w : Word) : (o.writeEcc w).opb = o.opb := rfl
@[simp] theorem Operands.writeEcc_ecc (o : Operands) (w : Word) : (o.writeEcc w).ecc = w.setWidth 8 := rfl
@[simp] theorem Operands.writeEcc_len (o : Operands) (w : Word) : (o.writeEcc w).len = o.len := rfl
@[simp] theorem Operands.writeEcc_dbuf (o : Operands) (w : Word) : (o.writeEcc w).dbuf = o.dbuf := rfl

@[simp] theorem Operands.writeLen_opa (o : Operands) (w : Word) : (o.writeLen w).opa = o.opa := rfl
@[simp] theorem Operands.writeLen_opb (o : Operands) (w : Word) : (o.writeLen w).opb = o.opb := rfl
@[simp] theorem Operands.writeLen_ecc (o : Operands) (w : Word) : (o.writeLen w).ecc = o.ecc := rfl
@[simp] theorem Operands.writeLen_len (o : Operands) (w : Word) : (o.writeLen w).len = w.setWidth 9 := rfl
@[simp] theorem Operands.writeLen_dbuf (o : Operands) (w : Word) : (o.writeLen w).dbuf = o.dbuf := rfl

@[simp] theorem Operands.writeDbuf_opa (o : Operands) (i : Fin 256) (w : Word) : (o.writeDbuf i w).opa = o.opa := rfl
@[simp] theorem Operands.writeDbuf_opb (o : Operands) (i : Fin 256) (w : Word) : (o.writeDbuf i w).opb = o.opb := rfl
@[simp] theorem Operands.writeDbuf_ecc (o : Operands) (i : Fin 256) (w : Word) : (o.writeDbuf i w).ecc = o.ecc := rfl
@[simp] theorem Operands.writeDbuf_len (o : Operands) (i : Fin 256) (w : Word) : (o.writeDbuf i w).len = o.len := rfl
@[simp] theorem Operands.writeDbuf_dbuf (o : Operands) (i : Fin 256) (w : Word) : (o.writeDbuf i w).dbuf = o.dbuf.set i.val (w.setWidth 8) := rfl

/-! STATUS (R25, R42). -/

@[simp] theorem Status.issue_busy (st : Status) : (st.issue).busy = true := rfl
@[simp] theorem Status.issue_done (st : Status) : (st.issue).done = false := rfl
@[simp] theorem Status.issue_err (st : Status) : (st.issue).err = false := rfl
@[simp] theorem Status.issue_wbusy (st : Status) : (st.issue).wbusy = st.wbusy := rfl
@[simp] theorem Status.issue_errcode (st : Status) : (st.issue).errcode = .noError := rfl

@[simp] theorem Status.complete_busy (st : Status) : (st.complete).busy = false := rfl
@[simp] theorem Status.complete_done (st : Status) : (st.complete).done = true := rfl
@[simp] theorem Status.complete_err (st : Status) : (st.complete).err = st.err := rfl
@[simp] theorem Status.complete_wbusy (st : Status) : (st.complete).wbusy = st.wbusy := rfl
@[simp] theorem Status.complete_errcode (st : Status) : (st.complete).errcode = st.errcode := rfl

@[simp] theorem Status.error_busy (st : Status) (c : ErrCode) : (st.error c).busy = st.busy := rfl
@[simp] theorem Status.error_done (st : Status) (c : ErrCode) : (st.error c).done = st.done := rfl
@[simp] theorem Status.error_err (st : Status) (c : ErrCode) : (st.error c).err = true := rfl
@[simp] theorem Status.error_wbusy (st : Status) (c : ErrCode) : (st.error c).wbusy = st.wbusy := rfl
@[simp] theorem Status.error_errcode (st : Status) (c : ErrCode) : (st.error c).errcode = c := rfl

@[simp] theorem Status.drop_busy (st : Status) : (st.drop).busy = st.busy := rfl
@[simp] theorem Status.drop_done (st : Status) : (st.drop).done = st.done := rfl
@[simp] theorem Status.drop_err (st : Status) : (st.drop).err = st.err := rfl
@[simp] theorem Status.drop_wbusy (st : Status) : (st.drop).wbusy = true := rfl
@[simp] theorem Status.drop_errcode (st : Status) : (st.drop).errcode = st.errcode := rfl

@[simp] theorem Status.clear_busy (st : Status) (w : Word) : (st.clear w).busy = st.busy := rfl
@[simp] theorem Status.clear_done (st : Status) (w : Word) : (st.clear w).done = (st.done && !w.getLsbD 1) := rfl
@[simp] theorem Status.clear_err (st : Status) (w : Word) : (st.clear w).err = (st.err && !w.getLsbD 1) := rfl
@[simp] theorem Status.clear_wbusy (st : Status) (w : Word) : (st.clear w).wbusy = (st.wbusy && !w.getLsbD 3) := rfl
@[simp] theorem Status.clear_errcode (st : Status) (w : Word) : (st.clear w).errcode = if w.getLsbD 1 then .noError else st.errcode := rfl

/-! The host agent. -/

@[simp] theorem HostAgent.advance_prog (h : HostAgent) : (h.advance).prog = h.prog := rfl
@[simp] theorem HostAgent.advance_pc (h : HostAgent) : (h.advance).pc = h.pc + 1 := rfl
@[simp] theorem HostAgent.advance_temps (h : HostAgent) : (h.advance).temps = h.temps := rfl
@[simp] theorem HostAgent.advance_resp (h : HostAgent) : (h.advance).resp = h.resp := rfl

end Sys2Proof.Machine
end

