-- ==== Sys2Proof/Laws/Ops.lean ====
section
/-! SUPPORT. One lemma per shared operation that says all it can do; the provers cite these and do not unfold. -/

namespace Sys2Proof.Machine

/-! Buffers. -/

theorem writePrefix_getElem {n : Nat} (v : Vector Byte n) (l : List Byte) (i : Nat) (h : i < n) :
    (writePrefix v l)[i] = if h' : i < l.length then l[i] else v[i] := by
  simp [writePrefix]

theorem writePrefix_keeps {n : Nat} (v : Vector Byte n) (l : List Byte) (i : Nat) (h : i < n) (hi : l.length ≤ i) :
    (writePrefix v l)[i] = v[i] := by
  rw [writePrefix_getElem, dif_neg (by omega)]

theorem writePrefix_take {n : Nat} (v : Vector Byte n) (l : List Byte) (h : l.length ≤ n) :
    (writePrefix v l).toList.take l.length = l := by
  apply List.ext_getElem
  · simp; omega
  · intro i h₁ h₂
    simp [writePrefix_getElem, h₂]

/-! Completion (R102, R184). -/

theorem completeWith_next {s t : State} {r : Except ErrCode Results} :
    s.completeWith r = .next t ↔
      (∃ res, r = .ok res ∧ t = s.completeOk res) ∨ (∃ c, r = .error c ∧ t = s.takeError c) := by
  cases r <;> simp [State.completeWith, eq_comm]

theorem completeWith_answers (s : State) (r : Except ErrCode Results) : ∃ t, s.completeWith r = .next t := by
  cases r <;> simp [State.completeWith]

theorem completeIllegal_eq (s : State) : s.completeIllegal = .next (s.takeError .illegalOp) := rfl

/-! Issue (R100). -/

theorem issue_eq (s : State) (w : Word) : ∃ n sc, s.issue w = s.issueAfter w n sc := by
  unfold State.issue
  split
  · exact ⟨_, _, rfl⟩
  · exact ⟨_, _, rfl⟩

/-! The schedule. -/

theorem tick_eq (s : State) : s.tick = { s with sched := if s.status.busy then { s.sched with wait := s.sched.wait - 1 } else s.sched } := by
  unfold State.tick
  split <;> rfl

@[simp] theorem State.tick_status (s : State) : s.tick.status = s.status := by simp [tick_eq]
@[simp] theorem State.tick_ie (s : State) : s.tick.ie = s.ie := by simp [tick_eq]
@[simp] theorem State.tick_operands (s : State) : s.tick.operands = s.operands := by simp [tick_eq]
@[simp] theorem State.tick_results (s : State) : s.tick.results = s.results := by simp [tick_eq]
@[simp] theorem State.tick_lcmd (s : State) : s.tick.lcmd = s.lcmd := by simp [tick_eq]
@[simp] theorem State.tick_host (s : State) : s.tick.host = s.host := by simp [tick_eq]

theorem tick_wait (s : State) (h : s.status.busy = true) : s.tick.sched.wait = s.sched.wait - 1 := by
  simp [tick_eq, h]

theorem unitTurn_iff (s : State) :
    s.unitTurn = true ↔ s.status.busy = true ∧ (s.sched.wait = 0 ∨ s.host.prog.length ≤ s.host.pc) := by
  simp [State.unitTurn, State.hostIdle]

/-! Bus accesses (R53 to R58). -/

theorem afterRead_eq (s : State) (off : BitVec 12) :
    ∃ n, s.afterRead off = { s with sched := { s.sched with draws := n } } := by
  unfold State.afterRead
  split
  · exact ⟨_, rfl⟩
  · exact ⟨_, rfl⟩

/-- What an aligned write can do to the state: nothing, the dropped write, an issue, the STATUS write, IRQ_EN, or a write of
operand state; all but the second and the STATUS and IRQ_EN writes with BUSY = 0 only. -/
theorem writeWord_cases (s : State) (off : BitVec 12) (w : Word) :
    s.writeWord off w = s ∨
    (s.status.busy = true ∧ s.writeWord off w = s.dropWrite) ∨
    (s.status.busy = false ∧ s.writeWord off w = s.issue w) ∨
    s.writeWord off w = s.acknowledge w ∨
    s.writeWord off w = { s with ie := w.getLsbD 0 } ∨
    (s.status.busy = false ∧ ∃ o, s.writeWord off w = { s with operands := o }) := by
  unfold State.writeWord
  by_cases hb : s.status.busy = true
  · by_cases hw : writableWhileBusy off = true
    · have h : off = 0x00C ∨ off = 0x010 := by simpa [writableWhileBusy] using hw
      obtain rfl | rfl := h
      · right; right; right; left; simp [writableWhileBusy]; rfl
      · right; right; right; right; left; simp [writableWhileBusy]; rfl
    · right; left; simp [hb, hw]
  · rw [Bool.not_eq_true] at hb
    rw [if_neg (by simp [hb])]
    cases locAt off with
    | none => left; rfl
    | some l =>
      cases l with
      | cmd => right; right; left; exact ⟨hb, rfl⟩
      | status => right; right; right; left; rfl
      | irqEn => right; right; right; right; left; rfl
      | opa => iterate 5 right
               exact ⟨hb, _, rfl⟩
      | opb => iterate 5 right
               exact ⟨hb, _, rfl⟩
      | ecc => iterate 5 right
               exact ⟨hb, _, rfl⟩
      | len => iterate 5 right
               exact ⟨hb, _, rfl⟩
      | dbuf i => iterate 5 right
                  exact ⟨hb, _, rfl⟩
      | id => left; rfl
      | cap => left; rfl
      | result => left; rfl
      | rlen => left; rfl
      | genDeg => left; rfl
      | remCnt => left; rfl
      | gbuf j => left; rfl
      | rbuf k => left; rfl

/-- What an access can do to the state: only the model's draw counter moves, or it is an aligned write (R53, R56). -/
theorem access_cases (s : State) (a : Access) :
    (∃ n, s.access a = { s with sched := { s.sched with draws := n } }) ∨ (∃ w, s.access a = s.writeWord a.offset w) := by
  unfold State.access
  split
  · cases a.op with
    | read => exact .inl (afterRead_eq s _)
    | write w => exact .inr ⟨w, rfl⟩
  · exact .inl ⟨s.sched.draws, rfl⟩

/-- An access never writes the result state (R32, R57). -/
theorem access_results (s : State) (a : Access) : (s.access a).results = s.results := by
  obtain ⟨n, h⟩ | ⟨w, h⟩ := access_cases s a
  · rw [h]
  · rw [h]
    obtain h | ⟨-, h⟩ | ⟨-, h⟩ | h | h | ⟨-, o, h⟩ := writeWord_cases s a.offset w <;> rw [h]
    · rfl
    · obtain ⟨n, sc, h⟩ := issue_eq s w
      rw [h]; rfl
    · rfl

/-- An access never touches the host agent by itself. -/
theorem access_host (s : State) (a : Access) : (s.access a).host = s.host := by
  obtain ⟨n, h⟩ | ⟨w, h⟩ := access_cases s a
  · rw [h]
  · rw [h]
    obtain h | ⟨-, h⟩ | ⟨-, h⟩ | h | h | ⟨-, o, h⟩ := writeWord_cases s a.offset w <;> rw [h]
    · rfl
    · obtain ⟨n, sc, h⟩ := issue_eq s w
      rw [h]; rfl
    · rfl

/-- An access while BUSY leaves BUSY, LCMD, the operand state and the delay of the command in flight alone (R58). -/
theorem access_while_busy (s : State) (a : Access) (hb : s.status.busy = true) :
    (s.access a).status.busy = true ∧ (s.access a).lcmd = s.lcmd ∧ (s.access a).operands = s.operands ∧
    (s.access a).sched.wait = s.sched.wait := by
  obtain ⟨n, h⟩ | ⟨w, h⟩ := access_cases s a
  · rw [h]; exact ⟨hb, rfl, rfl, rfl⟩
  · rw [h]
    obtain h | ⟨-, h⟩ | ⟨hf, -⟩ | h | h | ⟨hf, -⟩ := writeWord_cases s a.offset w
    · rw [h]; exact ⟨hb, rfl, rfl, rfl⟩
    · rw [h]; exact ⟨hb, rfl, rfl, rfl⟩
    · simp [hb] at hf
    · rw [h]; exact ⟨hb, rfl, rfl, rfl⟩
    · rw [h]; exact ⟨hb, rfl, rfl, rfl⟩
    · simp [hb] at hf

/-! The host agent (R87). -/

theorem setTemp_keeps_order (l : List (Nat × Word)) (t : Nat) (w : Word)
    (h : List.Pairwise (fun p q => p.1 < q.1) l) : List.Pairwise (fun p q => p.1 < q.1) (setTemp l t w) := by
  have mem : ∀ (l : List (Nat × Word)) (p : Nat × Word), p ∈ setTemp l t w → p = (t, w) ∨ p ∈ l := by
    intro l
    induction l with
    | nil => intro p hp; left; simpa [setTemp] using hp
    | cons q l ih =>
      intro p hp
      obtain ⟨u, v⟩ := q
      unfold setTemp at hp
      split at hp
      · simpa using hp
      · split at hp
        · obtain rfl | hp := List.mem_cons.mp hp
          · exact .inl rfl
          · exact .inr (List.mem_cons_of_mem _ hp)
        · obtain rfl | hp := List.mem_cons.mp hp
          · exact .inr (by simp)
          · obtain hp | hp := ih p hp
            · exact .inl hp
            · exact .inr (List.mem_cons_of_mem _ hp)
  induction l with
  | nil => simp [setTemp]
  | cons q l ih =>
    obtain ⟨u, v⟩ := q
    obtain ⟨hq, hl⟩ := List.pairwise_cons.mp h
    unfold setTemp
    split
    · rename_i hlt
      refine List.pairwise_cons.mpr ⟨fun p hp => ?_, h⟩
      obtain rfl | hp := List.mem_cons.mp hp
      · exact hlt
      · exact Nat.lt_trans hlt (hq p hp)
    · split
      · rename_i heq
        subst heq
        exact List.pairwise_cons.mpr ⟨hq, hl⟩
      · refine List.pairwise_cons.mpr ⟨fun p hp => ?_, ih hl⟩
        obtain rfl | hp := mem l p hp
        · simp only; omega
        · exact hq p hp

theorem getTemp_setTemp_same (l : List (Nat × Word)) (t : Nat) (w : Word) : getTemp (setTemp l t w) t = w := by
  induction l with
  | nil => simp [setTemp, getTemp]
  | cons q l ih =>
    obtain ⟨u, v⟩ := q
    unfold setTemp
    split
    · simp [getTemp]
    · split
      · simp [getTemp]
      · rename_i h
        have : u ≠ t := fun h' => h h'.symm
        simpa [getTemp, this] using ih

theorem getTemp_setTemp_other (l : List (Nat × Word)) (t u : Nat) (w : Word) (h : u ≠ t) :
    getTemp (setTemp l t w) u = getTemp l u := by
  induction l with
  | nil => simp [setTemp, getTemp, h.symm]
  | cons q l ih =>
    obtain ⟨x, v⟩ := q
    unfold setTemp
    split
    · simp [getTemp, h.symm]
    · split
      · rename_i hx
        subst hx
        simp [getTemp, h.symm]
      · simp [getTemp, ih]

theorem receive_keeps (h : HostAgent) (t : Nat) (r : BusResponse) :
    (h.receive t r).prog = h.prog ∧ (h.receive t r).pc = h.pc ∧ (h.receive t r).resp = some r ∧
    ((h.receive t r).temps = h.temps ∨ ∃ w, r = .data w ∧ (h.receive t r).temps = setTemp h.temps t w) := by
  cases r <;> simp [HostAgent.receive]

/-- What a statement of the host program can do: one access, a move of the program position alone, or a reset. -/
theorem hostStmt_cases {s t : State} {st : Stmt} (h : s.hostStmt st = .next t) :
    (∃ a u, t = s.hostAccess a u) ∨ (∃ k, t = { s with host := { s.host with pc := k } }) ∨
    (st = .rst ∧ t = { s.resetUnit with host := s.host.advance }) := by
  cases st with
  | wr l v => exact .inl ⟨_, _, by simpa [State.hostStmt] using h.symm⟩
  | rd l u => exact .inl ⟨_, _, by simpa [State.hostStmt] using h.symm⟩
  | issue i => exact .inl ⟨_, _, by simpa [State.hostStmt] using h.symm⟩
  | issueWord w => exact .inl ⟨_, _, by simpa [State.hostStmt] using h.symm⟩
  | raw a u => exact .inl ⟨_, _, by simpa [State.hostStmt] using h.symm⟩
  | label n => exact .inr (.inl ⟨_, by simpa [State.hostStmt, HostAgent.advance] using h.symm⟩)
  | rst => exact .inr (.inr ⟨rfl, by simpa [State.hostStmt] using h.symm⟩)
  | bne u m v n =>
    simp only [State.hostStmt] at h
    split at h
    · split at h
      · exact .inr (.inl ⟨_, by simpa using h.symm⟩)
      · cases h
    · exact .inr (.inl ⟨_, by simpa [HostAgent.advance] using h.symm⟩)

/-! A step (R62, R102). -/

theorem step_unit {s : State} (h : s.unitTurn = true) :
    step s = match decode s.lcmd with | .ok i => exec i s | .error _ => s.completeIllegal := by
  unfold step
  exact if_pos h

theorem step_host {s : State} (h : s.unitTurn = false) : step s = s.hostStep := by
  simp [step, h]

/-- What a step can do when it answers a next state. -/
theorem step_cases {s t : State} (h : step s = .next t) :
    (s.unitTurn = true ∧ ((∃ i, decode s.lcmd = .ok i ∧ exec i s = .next t) ∨
      (∃ r, decode s.lcmd = .error r ∧ t = s.takeError .illegalOp))) ∨
    (s.unitTurn = false ∧ ((s.host.prog[s.host.pc]? = none ∧ t = s) ∨
      (∃ st, s.host.prog[s.host.pc]? = some st ∧ s.tick.hostStmt st = .next t))) := by
  cases hu : s.unitTurn with
  | true =>
    rw [step_unit hu] at h
    refine .inl ⟨rfl, ?_⟩
    split at h
    · rename_i i hd; exact .inl ⟨i, hd, h⟩
    · rename_i r hd; exact .inr ⟨r, hd, by simpa [completeIllegal_eq] using h.symm⟩
  | false =>
    rw [step_host hu] at h
    refine .inr ⟨rfl, ?_⟩
    unfold State.hostStep at h
    split at h
    · rename_i st hs; exact .inr ⟨st, hs, h⟩
    · rename_i hs; exact .inl ⟨hs, by simpa using h.symm⟩

end Sys2Proof.Machine
end

