-- ==== Sys2Proof/Laws/Commands.lean ====
section
/-! SUPPORT. The small lemmas of the commands' functions: lengths of polynomials, the zero rules of the product, and the one
shape every command's meaning has. -/

namespace Sys2Proof.Machine

/-- Every command ends through the one completion R102. -/
theorem exec_completes (i : Instr) (s : State) : ∃ r, exec i s = s.completeWith r := by
  cases i with
  | nop => exact ⟨.ok s.results, rfl⟩
  | gfmul => exact ⟨.ok (s.results.writeResult _ _), rfl⟩
  | gf2mul => exact ⟨.ok (s.results.writeResult _ _), rfl⟩
  | gflog => exact ⟨if _ then .error _ else .ok _, rfl⟩
  | gfexp => exact ⟨.ok (s.results.writeResult _ _), rfl⟩
  | rsgen => exact ⟨if _ then .error _ else .ok _, rfl⟩
  | rsrem => exact ⟨if _ then .error _ else _, rfl⟩
  | bchfmt => exact ⟨if _ then .error _ else .ok _, rfl⟩
  | bchver => exact ⟨if _ then .error _ else _, rfl⟩

/-! The range checks (R181). -/

theorem eccOutOfRange_iff (e : Byte) : eccOutOfRange e = true ↔ e.toNat = 0 ∨ 30 < e.toNat := by
  rw [eccOutOfRange, Bool.or_eq_true, beq_iff_eq, decide_eq_true_iff]
  exact Iff.rfl

theorem lenOutOfRange_iff (n : BitVec 9) : lenOutOfRange n = true ↔ n.toNat = 0 ∨ 256 < n.toNat := by
  rw [lenOutOfRange, Bool.or_eq_true, beq_iff_eq, decide_eq_true_iff]
  exact Iff.rfl

/-! The product R122. -/

@[simp] theorem gfmul_zero_left (b : Byte) : gfmul 0#8 b = 0#8 := by simp [gfmul]

@[simp] theorem gfmul_zero_right (a : Byte) : gfmul a 0#8 = 0#8 := by simp [gfmul]

theorem gfmul_nonzero {a b : Byte} (ha : a ≠ 0#8) (hb : b ≠ 0#8) :
    gfmul a b = expAt (((logAt a).toNat + (logAt b).toNat) % gfOrder) := by
  simp [gfmul, ha, hb]

/-! Polynomials (R11). -/

@[simp] theorem xorInto_nil_right (r : List Byte) : xorInto r [] = r := by cases r <;> rfl

@[simp] theorem xorInto_nil_left (h : List Byte) : xorInto [] h = [] := by cases h <;> rfl

@[simp] theorem xorInto_cons (x y : Byte) (r h : List Byte) : xorInto (x :: r) (y :: h) = (x ^^^ y) :: xorInto r h := rfl

@[simp] theorem xorInto_length (r h : List Byte) : (xorInto r h).length = r.length := by
  induction r generalizing h with
  | nil => simp
  | cons x r ih => cases h <;> simp [ih]

@[simp] theorem scale_length (f : Byte) (g : List Byte) : (scale f g).length = g.length := by simp [scale]

@[simp] theorem scale_nil (f : Byte) : scale f [] = [] := rfl

@[simp] theorem scale_cons (f c : Byte) (g : List Byte) : scale f (c :: g) = gfmul c f :: scale f g := rfl

@[simp] theorem scale_zero (g : List Byte) : scale 0#8 g = List.replicate g.length 0#8 := by
  induction g with
  | nil => rfl
  | cons c g ih => simp [ih, List.replicate_succ]

theorem xorInto_zeros (r : List Byte) (n : Nat) : xorInto r (List.replicate n 0#8) = r := by
  induction r generalizing n with
  | nil => simp
  | cons x r ih => cases n <;> simp [List.replicate_succ, ih]

@[simp] theorem mulRoot_length (g : List Byte) (a : Byte) : (mulRoot g a).length = g.length + 1 := by simp [mulRoot]

@[simp] theorem genRounds_length (k : Nat) : (genRounds k).length = k + 2 := by
  induction k with
  | zero => rfl
  | succ k ih => simp [genRounds, ih]

theorem genPoly_length {e : Nat} (h : 1 ≤ e) : (genPoly e).length = e + 1 := by
  simp [genPoly]; omega

@[simp] theorem remRound_length (g r : List Byte) : (remRound g r).length = r.length - 1 := by
  unfold remRound
  split
  · rfl
  · split <;> simp

/-- The zero test of R143 changes nothing: a zero leading coefficient scales the divisor to zero (R144). -/
theorem remRound_eq_tail (g r : List Byte) : remRound g r = (xorInto r (scale (r.headD 0#8) g)).tail := by
  unfold remRound
  split
  · simp
  · split
    · rename_i h
      simp [h, xorInto_zeros]
    · rfl

end Sys2Proof.Machine
end

