-- ==== Sys2Proof/Laws/PerInstr.lean ====
section
/-! SUPPORT. Statements about every command, made per constructor. -/

/-- A command is well formed and its word decodes to it with RSV = 0 (R80, R83, R85). -/
def Sys2Proof.Laws.RoundTrip.Statement (i : Sys2Proof.Instr) : Prop :=
  i.wellFormed = true ∧ Sys2Proof.decode (Sys2Proof.encode i) = .ok i ∧ (Sys2Proof.encode i).toNat / 16 = 0

namespace Sys2Proof.Laws.RoundTrip

theorem nop : Statement .nop := ⟨rfl, rfl, rfl⟩
theorem gfmul : Statement .gfmul := ⟨rfl, rfl, rfl⟩
theorem gf2mul : Statement .gf2mul := ⟨rfl, rfl, rfl⟩
theorem gflog : Statement .gflog := ⟨rfl, rfl, rfl⟩
theorem gfexp : Statement .gfexp := ⟨rfl, rfl, rfl⟩
theorem rsgen : Statement .rsgen := ⟨rfl, rfl, rfl⟩
theorem rsrem : Statement .rsrem := ⟨rfl, rfl, rfl⟩
theorem bchfmt : Statement .bchfmt := ⟨rfl, rfl, rfl⟩
theorem bchver : Statement .bchver := ⟨rfl, rfl, rfl⟩

end Sys2Proof.Laws.RoundTrip
end

