-- ==== Sys2Proof/Tests/Slice0.lean ====
section
/-! SUPPORT. Tests: small steps with the results that spec/ prints, the smoke test of WellFormed, and for every obligation with
hypotheses a witness that meets them. -/

set_option Elab.async false
set_option maxRecDepth 8000

namespace Sys2Proof.Tests

open Sys2Proof Sys2Proof.Machine

/-! Helpers. -/

/-- The next state of an outcome, if it is one. -/
def after (o : Out) : Option State :=
  match o with
  | .next t => some t
  | .fault _ => none
  | .refused _ => none

theorem next_of {o : Out} {p : State → Bool} (h : (after o).any p = true) : ∃ t, o = .next t ∧ p t = true := by
  cases o <;> simp_all [after]

/-- A status with the flags given. -/
def statusOf (busy done err : Bool) (c : ErrCode) : Status :=
  { busy := busy, done := done, err := err, wbusy := false, errcode := c }

/-- A small state with the STATUS and operands given; the buffers hold 7s, and the last result was 0xA5 with RLEN 8. -/
def small (st : Status) (opa opb ecc : Byte) (len : BitVec 9) (genDeg : Byte) (w : Word) : State :=
  { status := st, ie := true,
    operands := { opa := opa, opb := opb, ecc := ecc, len := len, dbuf := Vector.replicate 256 7#8 },
    results := { result := 0xA5#18, rlen := 8#5, genDeg := genDeg, remCnt := 0#8,
                 gbuf := Vector.replicate 31 7#8, rbuf := Vector.replicate 30 7#8 },
    lcmd := w, sched := { draws := 0, wait := 0, latency := [] },
    host := { prog := [], pc := 0, temps := [], resp := none } }

/-- A state with a command in flight and its completion next. -/
def flying (opa opb ecc : Byte) (len : BitVec 9) (genDeg : Byte) : State :=
  small (statusOf true false false .noError) opa opb ecc len genDeg 0#32

/-- An idle state. -/
def idle : State := small (statusOf false true false .noError) 0#8 0#8 0#8 0#9 0#8 0#32

/-- A state with a generator of degree `e` built by RSGEN, and RSREM in flight over the data `d`. -/
def built (e : Byte) (d : List Byte) : State :=
  let s := flying 0#8 0#8 e (BitVec.ofNat 9 d.length) e
  { s with operands := { s.operands with dbuf := writePrefix s.operands.dbuf d },
           results := s.results.writeGenerator (genPoly e.toNat) e }

/-- A state that runs a host program from its start. -/
def hosting (s : State) (wait : Nat) (prog : List Stmt) : State :=
  { s with sched := { s.sched with wait := wait }, host := { s.host with prog := prog } }

/-- RESULT, RLEN and the STATUS word after an outcome. -/
def shown (o : Out) : Option (Nat × Nat × Nat) :=
  (after o).map fun t => (t.results.result.toNat, t.results.rlen.toNat, t.status.word.toNat)

/-- The nine commands. -/
def commands : List Instr := [.nop, .gfmul, .gf2mul, .gflog, .gfexp, .rsgen, .rsrem, .bchfmt, .bchver]

/-! Decoding: words written out from R80's pattern and R83's map. -/

theorem test_decode_nop : decode 0b00000000000000000000000000000000#32 = .ok .nop := by decide
theorem test_decode_gfmul : decode 0b00000000000000000000000000000001#32 = .ok .gfmul := by decide
theorem test_decode_gf2mul : decode 0b00000000000000000000000000000010#32 = .ok .gf2mul := by decide
theorem test_decode_gflog : decode 0b00000000000000000000000000000011#32 = .ok .gflog := by decide
theorem test_decode_gfexp : decode 0b00000000000000000000000000000100#32 = .ok .gfexp := by decide
theorem test_decode_rsgen : decode 0b00000000000000000000000000000101#32 = .ok .rsgen := by decide
theorem test_decode_rsrem : decode 0b00000000000000000000000000000110#32 = .ok .rsrem := by decide
theorem test_decode_bchfmt : decode 0b00000000000000000000000000000111#32 = .ok .bchfmt := by decide
theorem test_decode_bchver : decode 0b00000000000000000000000000001000#32 = .ok .bchver := by decide
theorem test_decode_reserved_op : decode 0x00000009#32 = .error .reservedOp ∧ decode 0x0000000F#32 = .error .reservedOp := by decide
theorem test_decode_rsv : decode 0x00000010#32 = .error .rsvNonzero ∧ decode 0x80000001#32 = .error .rsvNonzero := by decide
theorem test_table_word : decodeTableWord 32 8 = some .bchver ∧ decodeTableWord 32 9 = none := by decide

/-! WellFormed: every check refuses an ill-formed term. -/

theorem test_wf_commands : commands.all Instr.wellFormed = true := by decide
theorem test_wf_word : Access.wellFormed (wordRead 0x00C#12) = true := by decide
theorem test_wf_misaligned : Access.wellFormed { wordRead 0x00D#12 with more := 0 } = false := by decide
theorem test_wf_byte_lane : Access.wellFormed { wordRead 0x00C#12 with lanes := 0b0001#4 } = false := by decide
theorem test_wf_burst : Access.wellFormed { wordRead 0x00C#12 with more := 1 } = false := by decide
theorem test_wf_program : Program.wellFormed (mul256 2#32 2#32 0 0 1) = true := by decide
theorem test_wf_missing_label : Program.wellFormed [.bne 0 1#32 0#32 5] = false := by decide
theorem test_wf_double_label : Program.wellFormed [.label 1, .label 1] = false := by decide

/-! Commands: the expected values are those of spec/95_test_vectors.md and of the rules' examples. -/

theorem test_nop_keeps_result : shown (exec .nop (flying 0 0 0 0 0)) = some (0xA5, 8, 2) := by decide +kernel
/-- R123's example, the source's multiply256(2,2) = 4. -/
theorem test_gfmul_square : shown (exec .gfmul (flying 2 2 0 0 0)) = some (4, 8, 2) := by decide +kernel
/-- The sample of S5: (0x53, 0xCA) gives 143. -/
theorem test_gfmul_wraps : shown (exec .gfmul (flying 0x53 0xCA 0 0 0)) = some (143, 8, 2) := by decide +kernel
/-- R124's example. -/
theorem test_gf2mul_and : shown (exec .gf2mul (flying 0b11001010 0b10100110 0 0 0)) = some (0x82, 8, 2) := by decide +kernel
/-- R125's example, and its error, which keeps RESULT and RLEN. -/
theorem test_gflog_29 : shown (exec .gflog (flying 0x1D 0 0 0 0)) = some (8, 8, 2) := by decide +kernel
theorem test_gflog_zero : shown (exec .gflog (flying 0 9 0 0 0)) = some (0xA5, 8, 0x206) := by decide +kernel
/-- R126's example and the last entry of the ROM. -/
theorem test_gfexp_8 : shown (exec .gfexp (flying 8 0 0 0 0)) = some (29, 8, 2) := by decide +kernel
theorem test_gfexp_255 : shown (exec .gfexp (flying 255 0 0 0 0)) = some (1, 8, 2) := by decide +kernel
/-- R141's example; the entries past ECC are kept. -/
theorem test_rsgen_7 : (after (exec .rsgen (flying 0 0 7 0 0))).map
    (fun t => (t.results.gbuf.toList.take 9, t.results.genDeg, t.status.word)) =
    some ([1, 127, 122, 154, 164, 11, 68, 117, 7], 7, 2) := by decide +kernel
theorem test_rsgen_31 : shown (exec .rsgen (flying 0 0 31 0 0)) = some (0xA5, 8, 0x306) := by decide +kernel
/-- R146's example; the entries past ECC are kept. -/
theorem test_rsrem_hello : (after (exec .rsrem
      (built 10 [32, 91, 11, 120, 209, 114, 220, 77, 67, 64, 236, 17, 236, 17, 236, 17]))).map
    (fun t => (t.results.rbuf.toList.take 11, t.results.remCnt, t.status.word)) =
    some ([196, 35, 39, 119, 235, 215, 231, 226, 93, 23, 7], 10, 2) := by decide +kernel
/-- C3's example: the leading zero of the remainder 0*x + 4 is kept. -/
theorem test_rsrem_leading_zero : (after (exec .rsrem (built 2 [3, 7]))).map
    (fun t => (t.results.rbuf.toList.take 2, t.results.remCnt)) = some ([0, 4], 2) := by decide +kernel
/-- R162's example, and the first mask index out of range. -/
theorem test_bchfmt_l0 : shown (exec .bchfmt (flying 1 0 0 0 0)) = some (0x77C4, 15, 2) := by decide +kernel
theorem test_bchfmt_mask_8 : shown (exec .bchfmt (flying 1 8 0 0 0)) = some (0xA5, 8, 0x606) := by decide +kernel
/-- R164's example, and the empty string of version 6. -/
theorem test_bchver_7 : shown (exec .bchver (flying 7 0 0 0 0)) = some (0x07C94, 18, 2) := by decide +kernel
theorem test_bchver_6 : shown (exec .bchver (flying 6 0 0 0 0)) = some (0, 0, 2) := by decide +kernel
/-- ISS-15: an illegal word. -/
theorem test_illegal_word : (after (step (State.reset.withFetchWord 32 9))).map (fun t => t.status.word) = some 0x106#32 := by
  decide +kernel
/-- ISS-5: a STATUS write of 2 clears ERR and ERRCODE with DONE. -/
theorem test_status_clear : ((small (statusOf false true true .noGen) 0 0 0 0 0 0).access (wordWrite 0x00C#12 2#32)).status.word = 0#32 := by
  decide +kernel
/-- P5, schedule B: a write to OPB while BUSY is dropped and sets WBUSY. -/
theorem test_dropped_write : (let t := (flying 2 3 0 0 0).access (wordWrite 0x018#12 7#32)
    (t.operands.opb, t.status.word)) = (3#8, 9#32) := by decide +kernel
theorem test_table_constants : gfPoly = 0x11D ∧ expAt 1 = BitVec.ofNat 8 gfPrim ∧ gbufDepth = eccMax + 1 ∧ rbufDepth = eccMax := by decide

/-! Witnesses: concrete states and operands that meet the hypotheses of the obligations. -/

theorem illegal_nine : ∀ i : Instr, (9#32 : Word) ≠ encode i := by intro i; cases i <;> decide
theorem illegal_sixteen : ∀ i : Instr, (0x10#32 : Word) ≠ encode i := by intro i; cases i <;> decide

/-- A state whose completion of each command succeeds. -/
def ok (i : Instr) : State :=
  match i with
  | .nop | .gfmul | .gf2mul | .gflog | .gfexp => flying 9 5 0 0 0
  | .rsgen => flying 0 0 30 0 0
  | .rsrem => built 2 [3, 7]
  | .bchfmt => flying 3 7 0 0 0
  | .bchver => flying 40 0 0 0 0

theorem ok_inFlight (i : Instr) : InFlight (ok i) := by cases i <;> decide

theorem ok_completes (i : Instr) : ∃ t, exec i (ok i) = .next t ∧ (!t.status.err) = true := by
  cases i <;> exact next_of (p := fun t => !t.status.err) (by decide +kernel)

theorem witness_DecodeFollowsTheOpcodeMap :
    (0x10#32 : Word).toNat / 16 ≠ 0 ∧ (0xFFFFFFFF#32 : Word).toNat / 16 ≠ 0 ∧ (0#32 : Word).toNat = 0 ∧ (8#32 : Word).toNat = 8 ∧
    ((9#32 : Word).toNat / 16 = 0 ∧ 9 ≤ (9#32 : Word).toNat % 16) ∧ ((15#32 : Word).toNat / 16 = 0 ∧ 9 ≤ (15#32 : Word).toNat % 16) := by
  decide

theorem witness_IllegalWordsCompleteWithIllegalOp :
    (∀ i : Instr, (9#32 : Word) ≠ encode i) ∧ idle.status.busy = false ∧
    State.unitTurn { flying 0 0 0 0 0 with lcmd := 9#32 } = true := ⟨illegal_nine, by decide, by decide⟩

theorem witness_UnitTurnRunsTheDecodedCommand :
    ((flying 0 0 0 0 0).status.busy = true ∧ (flying 0 0 0 0 0).sched.wait = 0 ∧ decode (flying 0 0 0 0 0).lcmd = .ok .nop) ∧
    ((hosting (flying 0 0 0 0 0) 3 []).host.prog.length ≤ (hosting (flying 0 0 0 0 0) 3 []).host.pc) := by decide

theorem witness_HostTurnRunsTheNextStatement :
    ((hosting idle 0 [.rst]).unitTurn = false ∧ (hosting idle 0 [.rst]).host.prog[0]? = some .rst ∧
      (hosting idle 0 [.rst]).status.busy = false) ∧
    ((hosting (flying 0 0 0 0 0) 1 [.rst]).unitTurn = false ∧ (hosting (flying 0 0 0 0 0) 1 [.rst]).status.busy = true) ∧
    (idle.unitTurn = false ∧ idle.host.prog[idle.host.pc]? = none) := by decide

theorem witness_CmdWriteIssuesTheWord : idle.status.busy = false ∧ (flying 0 0 0 0 0).status.busy = true := by decide

theorem witness_SuccessChangesOnlyTheOutputs (i : Instr) :
    ∃ s t, InFlight s ∧ exec i s = .next t ∧ (!t.status.err) = true := by
  obtain ⟨t, h, e⟩ := ok_completes i
  exact ⟨ok i, t, ok_inFlight i, h, e⟩

theorem witness_ErrorCompletionWritesOnlyStatus :
    ∀ p ∈ [(Instr.gflog, flying 0 0 0 0 0), (.rsgen, flying 0 0 0 0 0), (.rsrem, flying 0 0 31 1 0), (.rsrem, flying 0 0 2 257 0),
      (.rsrem, flying 0 0 2 256 0), (.bchfmt, flying 4 0 0 0 0), (.bchver, flying 41 0 0 0 0)],
    InFlight p.2 ∧ ∃ t, exec p.1 p.2 = .next t ∧ t.status.err = true := by
  intro p hp
  fin_cases hp <;> exact ⟨by decide, next_of (p := fun t => t.status.err) (by decide +kernel)⟩

theorem witness_CommandsRaiseOnlyTheirErrors :
    (∃ t, step { flying 0 0 0 0 0 with lcmd := 0x10#32 } = .next t ∧ t.status.err = true) ∧
    (∀ i : Instr, (0x10#32 : Word) ≠ encode i) ∧ State.unitTurn { flying 0 0 0 0 0 with lcmd := 0x10#32 } = true ∧
    ((small (statusOf false true true .noGen) 0 0 0 0 0 0).access (wordRead 0x00C#12)).status.err = true :=
  ⟨next_of (p := fun t => t.status.err) (by decide +kernel), illegal_sixteen, by decide, by decide⟩

theorem witness_OutputsDependOnlyOnTheInputs (i : Instr) :
    ∃ s s' t t', s ≠ s' ∧ InFlight s ∧ InFlight s' ∧ SameInputs i s s' ∧ exec i s = .next t ∧ exec i s' = .next t' ∧
      (!t.status.err) = true := by
  obtain ⟨t, h, e⟩ := ok_completes i
  have h' : ∃ t', exec i { ok i with ie := false } = .next t' ∧ (!t'.status.err) = true := by
    cases i <;> exact next_of (p := fun t => !t.status.err) (by decide +kernel)
  obtain ⟨t', h', -⟩ := h'
  refine ⟨ok i, { ok i with ie := false }, t, t', ?_, ok_inFlight i, ?_, ?_, h, h', e⟩
  · intro hs
    have hi := congrArg State.ie hs
    cases i <;> exact absurd hi (by decide)
  · cases i <;> decide
  · cases i <;> simp [SameInputs]

theorem witness_NoResultDependsOnTheSchedule (i : Instr) : ∃ s t, exec i s = .next t :=
  let ⟨t, h, _⟩ := ok_completes i
  ⟨ok i, t, h⟩

theorem witness_NopCompletes : InFlight (flying 0 0 0 0 0) := by decide

theorem witness_LogIsTheUniqueExponent :
    ((1#8 : Byte) ≠ 0#8 ∧ 0 ≤ 254 ∧ expAt 0 = 1#8) ∧ ((142#8 : Byte) ≠ 0#8 ∧ 254 ≤ 254 ∧ expAt 254 = 142#8) := by decide +kernel

theorem witness_GfmulIsTheReducedCarrylessProduct : ((0#8 : Byte) = 0#8) ∧ ((255#8 : Byte) ≠ 0#8 ∧ (1#8 : Byte) ≠ 0#8) := by decide

theorem witness_GfmulObeysTheFieldLaws : ((1#8 : Byte) ≠ 0#8) ∧ ((255#8 : Byte) ≠ 0#8) := by decide

theorem witness_SourceTablePropertiesHold : ((1#8 : Byte) ≠ 0#8) ∧ ((255#8 : Byte) ≠ 0#8) := by decide

theorem witness_GfmulWritesTheProduct : InFlight (flying 0 255 0 0 0) ∧ (0x8E#8 : Byte) ≠ 0#8 ∧ (2#8 : Byte) ≠ 0#8 := by decide

theorem witness_Gf2mulWritesTheBitwiseAnd :
    (InFlight (flying 255 255 0 0 0) ∧ (flying 255 255 0 0 0).operands.opa = (flying 255 255 0 0 0).operands.opb) ∧
    (InFlight (flying 0 255 0 0 0) ∧ (flying 0 255 0 0 0).operands.opa = 0#8) := by decide

theorem witness_GflogWritesTheLogarithm :
    (InFlight (flying 1 0 0 0 0) ∧ (flying 1 0 0 0 0).operands.opa ≠ 0#8) ∧
    (InFlight (flying 0 0 0 0 0) ∧ (flying 0 0 0 0 0).operands.opa = 0#8) := by decide

theorem witness_GfexpWritesThePower : InFlight (flying 255 0 0 0 0) := by decide

theorem witness_RsgenWritesTheGenerator :
    (∀ e ∈ [1#8, 30#8], InFlight (flying 0 0 e 0 0) ∧ 1 ≤ (flying 0 0 e 0 0).operands.ecc.toNat ∧ (flying 0 0 e 0 0).operands.ecc.toNat ≤ 30) ∧
    (∀ e ∈ [0#8, 31#8, 255#8], InFlight (flying 0 0 e 0 0) ∧
      ((flying 0 0 e 0 0).operands.ecc.toNat = 0 ∨ 30 < (flying 0 0 e 0 0).operands.ecc.toNat)) := by
  and_intros <;> (intro x hx; fin_cases hx <;> decide)

theorem witness_GeneratorHasTheConsecutiveRoots :
    (1 ≤ 254 ∧ 254 < 255) ∧ (1 ≤ 255 ∧ 255 ≤ 255 ∧ 254 < 255) ∧ (1 ≤ 30 ∧ 30 ≤ 30) ∧ 1#8 ∈ genPoly 1 := by decide +kernel

theorem witness_RemainderHasEccCodewords : ([1#8] : List Byte) ≠ [] := by decide

theorem witness_RemainderAgreesWithTheStrippingLoop : ([1#8, 5#8] : List Byte).head? = some 1#8 ∧ 2 ≤ ([1#8, 5#8] : List Byte).length := by decide

theorem witness_BlockWithRemainderIsACodeword :
    (1 ≤ 1 ∧ 1 ≤ 255 ∧ ([0#8] : List Byte) ≠ [] ∧ 0 < 1) ∧ (1 ≤ 255 ∧ 255 ≤ 255 ∧ ([9#8, 0#8] : List Byte) ≠ [] ∧ 254 < 255) := by decide

theorem witness_RemainderIsLinear : ([3#8, 7#8] : List Byte).length = ([200#8, 0#8] : List Byte).length ∧ ([1#8, 5#8] : List Byte) ≠ [] := by decide

theorem witness_RsremWritesTheRemainder :
    (∀ p ∈ [(1#8, 1#9), (30#8, 256#9)], InFlight (flying 0 0 p.1 p.2 p.1) ∧ 1 ≤ p.1.toNat ∧ p.1.toNat ≤ 30 ∧ 1 ≤ p.2.toNat ∧ p.2.toNat ≤ 256 ∧
      (flying 0 0 p.1 p.2 p.1).results.genDeg = (flying 0 0 p.1 p.2 p.1).operands.ecc) ∧
    (∀ e ∈ [0#8, 31#8], InFlight (flying 0 0 e 0 0) ∧ (e.toNat = 0 ∨ 30 < e.toNat)) ∧
    (∀ n ∈ [0#9, 257#9, 511#9], InFlight (flying 0 0 1 n 0) ∧ 1 ≤ (1#8 : Byte).toNat ∧ (1#8 : Byte).toNat ≤ 30 ∧ (n.toNat = 0 ∨ 256 < n.toNat)) ∧
    (InFlight (flying 0 0 30 256 29) ∧ (flying 0 0 30 256 29).results.genDeg ≠ (flying 0 0 30 256 29).operands.ecc) ∧
    (([4#8] : List Byte) ≠ [] ∧ ([1#8, 5#8] : List Byte).head? = some 1#8) := by
  and_intros <;> first | (intro x hx; fin_cases hx <;> decide) | decide

theorem witness_ErrorPriorityIsFixed :
    (InFlight { flying 0 0 0 0 5 with lcmd := 9#32 } ∧ State.unitTurn { flying 0 0 0 0 5 with lcmd := 9#32 } = true ∧ ∀ i : Instr, (9#32 : Word) ≠ encode i) ∧
    (InFlight (flying 0 0 0 0 5) ∧ (flying 0 0 0 0 5).operands.ecc.toNat = 0) ∧
    (InFlight (flying 0 0 30 257 5) ∧ ¬((30#8 : Byte).toNat = 0 ∨ 30 < (30#8 : Byte).toNat) ∧ 256 < (257#9 : BitVec 9).toNat) ∧
    (InFlight (flying 0 0 1 256 5) ∧ ¬((1#8 : Byte).toNat = 0 ∨ 30 < (1#8 : Byte).toNat) ∧
      ¬((256#9 : BitVec 9).toNat = 0 ∨ 256 < (256#9 : BitVec 9).toNat) ∧ (flying 0 0 1 256 5).results.genDeg ≠ (flying 0 0 1 256 5).operands.ecc) :=
  ⟨⟨by decide, by decide, illegal_nine⟩, by decide, by decide, by decide⟩

theorem witness_RsremAfterResetRaisesNoGen :
    ∃ s₀ s : State, s.results = s₀.resetUnit.results ∧ InFlight s ∧ 1 ≤ s.operands.ecc.toNat ∧ s.operands.ecc.toNat ≤ 30 ∧
      1 ≤ s.operands.len.toNat ∧ s.operands.len.toNat ≤ 256 :=
  ⟨idle, { flying 0 0 30 256 0 with results := idle.resetUnit.results }, rfl, by decide, by decide, by decide, by decide, by decide⟩

theorem witness_BchremIsTheRemainder : (1 : Nat) ≠ 0 := by decide

theorem witness_BchStringsAreCodewords :
    (0 ≤ 3 ∧ 0 ≤ 7) ∧ (3 ≤ 3 ∧ 7 ≤ 7) ∧ (7 ≤ 7 ∧ 7 ≤ 40) ∧ (7 ≤ 40 ∧ 40 ≤ 40) ∧ fmtstr 3 7 = fmtstr 3 7 ∧ verstr 40 = verstr 40 := by decide

theorem witness_BchfmtWritesTheFormatString :
    (∀ p ∈ [(0#8, 0#8), (3#8, 7#8)], InFlight (flying p.1 p.2 0 0 0) ∧ p.1.toNat ≤ 3 ∧ p.2.toNat ≤ 7) ∧
    (∀ p ∈ [(4#8, 0#8), (0#8, 8#8)], InFlight (flying p.1 p.2 0 0 0) ∧ (3 < p.1.toNat ∨ 7 < p.2.toNat)) := by
  and_intros <;> (intro x hx; fin_cases hx <;> decide)

theorem witness_BchverWritesTheVersionString :
    (∀ v ∈ [7#8, 40#8], InFlight (flying v 0 0 0 0) ∧ 7 ≤ v.toNat ∧ v.toNat ≤ 40) ∧
    (∀ v ∈ [1#8, 6#8], InFlight (flying v 0 0 0 0) ∧ 1 ≤ v.toNat ∧ v.toNat ≤ 6) ∧
    (∀ v ∈ [0#8, 41#8], InFlight (flying v 0 0 0 0) ∧ (v.toNat = 0 ∨ 40 < v.toNat)) := by
  and_intros <;> (intro x hx; fin_cases hx <;> decide)

theorem witness_WindowIsFourKiBAtTheBase :
    windowOffset gfrbBase = some 0x000#12 ∧ windowOffset (gfrbBase + 4095) = some 0xFFF#12 := by
  constructor
  · simp [windowOffset]
  · simp [windowOffset]

theorem witness_AddressMapIsOneToOne :
    locAt 0x000#12 = some .id ∧ locAt 0xC74#12 = some (.rbuf 29) ∧ (0xC74#12).toNat % 4 = 0 := by decide

theorem witness_IdAndCapAreConstant : idle.status.busy = false := by decide

theorem witness_BusErrorsChangeNothing :
    (wordRead 0x001#12).offset.toNat % 4 ≠ 0 ∧ { wordRead 0#12 with lanes := 0b0111#4 }.lanes ≠ 0b1111#4 ∧
    0 < { wordRead 0#12 with more := 1 }.more ∧
    ((wordRead 0xFFC#12).offset.toNat % 4 = 0 ∧ (wordRead 0xFFC#12).lanes = 0b1111#4 ∧ (wordRead 0xFFC#12).more = 0) := by decide

theorem witness_AlignedReadsReturnTheLocation :
    idle.status.busy = false ∧ (flying 0 0 0 0 0).status.busy = true ∧
    (∀ off ∈ [0x034#12, 0x3FC#12, 0x87C#12, 0xBFC#12, 0xC78#12, 0xFFC#12], Reserved off) ∧ (0x024#12).toNat % 4 = 0 := by
  and_intros <;> first | (intro x hx; fin_cases hx <;> decide) | decide

theorem witness_AlignedWritesStoreTheLowBits :
    idle.status.busy = false ∧
    (∀ off ∈ [0x000#12, 0x004#12, 0x024#12, 0x030#12, 0x800#12, 0x878#12, 0xC00#12, 0xC74#12], ReadOnly off) ∧
    (∀ off ∈ [0x034#12, 0x3FC#12, 0x87C#12, 0xBFC#12, 0xC78#12, 0xFFC#12], Reserved off) := by
  and_intros <;> first | (intro x hx; fin_cases hx <;> decide) | decide

theorem witness_WritesWhileBusyAreDropped :
    (flying 0 0 0 0 0).status.busy = true ∧
    ∀ off ∈ [0x000#12, 0x008#12, 0x014#12, 0xFFC#12], off.toNat % 4 = 0 ∧ off ≠ 0x00C#12 ∧ off ≠ 0x010#12 := by
  and_intros <;> first | (intro x hx; fin_cases hx <;> decide) | decide

theorem witness_ReservedWordsReadZeroIgnoreWrites :
    Reserved 0x034#12 ∧ Reserved 0xFFC#12 ∧ idle.status.busy = false ∧ (flying 0 0 0 0 0).status.busy = true := by decide

theorem witness_StatusWriteClearsFlags :
    (2#32 : Word).getLsbD 1 = true ∧ (8#32 : Word).getLsbD 1 = false ∧ (8#32 : Word).getLsbD 3 = true ∧ (2#32 : Word).getLsbD 3 = false := by decide

theorem witness_ErrorsAreAcknowledged :
    (2#32 : Word).getLsbD 1 = true ∧ (small (statusOf false true true .noGen) 0 0 0 0 0 0).status.busy = false := by decide

theorem witness_IrqFollowsIeAndDone :
    (0#32 : Word).getLsbD 0 = false ∧ (2#32 : Word).getLsbD 1 = true ∧ idle.status.busy = false ∧ (flying 0 0 0 0 0).unitTurn = true ∧
    ∃ t, step (flying 0 0 0 0 0) = .next t ∧ t.irq = true :=
  ⟨by decide, by decide, by decide, by decide, next_of (p := fun t => t.irq) (by decide +kernel)⟩

theorem witness_ResetSetsEveryRegister :
    (hosting (flying 0 0 0 0 0) 1 [.rst]).unitTurn = false ∧ (hosting (flying 0 0 0 0 0) 1 [.rst]).host.prog[0]? = some .rst := by decide

theorem witness_StepsKeepTheInvariant :
    ((built 7 [3, 7]).Inv ∧ ∃ t, step { built 7 [3, 7] with lcmd := 6#32 } = .next t ∧ t.status.done = true) ∧
    ((hosting idle 0 [.rst]).Inv ∧ ∃ t, step (hosting idle 0 [.rst]) = .next t ∧ (!t.status.done) = true) :=
  ⟨⟨by decide +kernel, next_of (p := fun t => t.status.done) (by decide +kernel)⟩,
    ⟨by decide +kernel, next_of (p := fun t => !t.status.done) (by decide +kernel)⟩⟩

theorem witness_OnlyCompletionAndResetWriteResults :
    (∃ t, step { flying 2 2 0 0 0 with lcmd := 1#32 } = .next t ∧ (t.results.result == 4#18) = true) ∧
    (flying 2 2 0 0 0).results.result ≠ 4#18 ∧
    (∃ t, step (hosting idle 0 [.rst]) = .next t ∧ (t.results.rlen == 0#5) = true) ∧ (hosting idle 0 [.rst]).results.rlen ≠ 0#5 :=
  ⟨next_of (p := fun t => t.results.result == 4#18) (by decide +kernel), by decide,
    next_of (p := fun t => t.results.rlen == 0#5) (by decide +kernel), by decide⟩

theorem witness_OperandsAreFrozenInFlight :
    (flying 0 0 0 0 0).status.busy = true ∧ (flying 0 0 0 0 0).unitTurn = true ∧
    (∃ t, step (hosting (flying 0 0 0 0 0) 1 [.wr .opa 5#32]) = .next t ∧ t.status.busy = true) ∧
    (hosting (flying 0 0 0 0 0) 1 [.wr .opa 5#32]).host.prog[0]? ≠ some .rst :=
  ⟨by decide, by decide, next_of (p := fun t => t.status.busy) (by decide +kernel), by decide⟩

theorem witness_CommandsInFlightComplete :
    labelsDefined (hosting (flying 0 0 0 0 0) 5 (poll 0 0)).host.prog = true ∧ (hosting (flying 0 0 0 0 0) 5 (poll 0 0)).status.busy = true := by decide

theorem witness_StepsNeverStop : labelsDefined (hosting idle 0 (poll 0 0)).host.prog = true := by decide

theorem witness_HostStatementsDoTheirAccess :
    (getTemp [(0, 1#32)] 0 &&& 1#32 ≠ 0#32 ∧ labelIndex (poll 4 0) 4 = some 0) ∧ getTemp [(0, 2#32)] 0 &&& 1#32 = 0#32 := by decide

end Sys2Proof.Tests
end

section
/-! Proofs of the statements of 00_scope.md: the latency of a command does not reach its result (R7, R223). -/

namespace Sys2Proof.Machine

/-- A command's completion depends on the operand state and the result state alone (R82, R102): two states that agree on
both get the same one, whatever their STATUS, IRQ_EN, LCMD, schedule and host agent. -/
theorem exec_completes_alike (i : Instr) {s s' : State} (ho : s'.operands = s.operands) (hr : s'.results = s.results) :
    ∃ r, exec i s = s.completeWith r ∧ exec i s' = s'.completeWith r := by
  obtain ⟨st, ie, o, res, w, sc, h⟩ := s
  obtain ⟨st', ie', o', res', w', sc', h'⟩ := s'
  obtain rfl : o' = o := ho
  obtain rfl : res' = res := hr
  cases i with
  | nop => exact ⟨.ok _, rfl, rfl⟩
  | gfmul => exact ⟨.ok _, rfl, rfl⟩
  | gf2mul => exact ⟨.ok _, rfl, rfl⟩
  | gflog => exact ⟨_, rfl, rfl⟩
  | gfexp => exact ⟨.ok _, rfl, rfl⟩
  | rsgen => exact ⟨_, rfl, rfl⟩
  | rsrem => exact ⟨_, rfl, rfl⟩
  | bchfmt => exact ⟨_, rfl, rfl⟩
  | bchver => exact ⟨_, rfl, rfl⟩

/-- Completion (R102) leaves the schedule in place and does not read it. -/
theorem completeWith_under_schedule {s t : State} {r : Except ErrCode Results} (sc : Schedule)
    (h : s.completeWith r = .next t) :
    State.completeWith { s with sched := sc } r = .next { t with sched := sc } := by
  obtain ⟨res, rfl, rfl⟩ | ⟨c, rfl, rfl⟩ := completeWith_next.mp h
  · rfl
  · rfl

/-- Settles O13: both schedules give the command one and the same completion, which carries the schedule through. -/
theorem noResultDependsOnTheSchedule : Obligations.NoResultDependsOnTheSchedule := by
  intro i s t sc h
  obtain ⟨r, hs, hsc⟩ := exec_completes_alike i (s := s) (s' := { s with sched := sc }) rfl rfl
  rw [hsc]
  exact completeWith_under_schedule sc (hs ▸ h)

end Sys2Proof.Machine
end


section
/-! Proofs of the statements of 10_state.md: the registers, STATUS, irq, and what every step keeps. -/

namespace Sys2Proof.Machine

/-! Word accesses at a known location (R52, R56, R57). -/

/-- The bus serves an aligned word access (R52). -/
theorem wordRead_served {off : BitVec 12} (ha : off.toNat % 4 = 0) : (wordRead off).served = true := by
  simp [Access.served, wordRead, ha]

theorem wordWrite_served {off : BitVec 12} (ha : off.toNat % 4 = 0) (w : Word) : (wordWrite off w).served = true := by
  simp [Access.served, wordWrite, ha]

theorem respond_wordRead (s : State) {off : BitVec 12} (ha : off.toNat % 4 = 0) :
    s.respond (wordRead off) = .data (s.readWord off) :=
  if_pos (wordRead_served ha)

theorem access_wordWrite (s : State) {off : BitVec 12} (ha : off.toNat % 4 = 0) (w : Word) :
    s.access (wordWrite off w) = s.writeWord off w :=
  if_pos (wordWrite_served ha w)

/-- A location that is no result state reads its value, whatever BUSY is (R56). -/
theorem readWord_of_not_isResult (s : State) {off : BitVec 12} {l : Loc} (hl : locAt off = some l)
    (hr : l.isResult = false) : s.readWord off = l.value s := by
  simp [State.readWord, hl, hr]

/-- A write that BUSY does not drop acts on its location (R57, R58). -/
theorem writeWord_of_not_dropped (s : State) {off : BitVec 12} {l : Loc} (w : Word) (hl : locAt off = some l)
    (hd : s.status.busy = false ∨ writableWhileBusy off = true) : s.writeWord off w = s.writeLoc l w := by
  have hkept : (s.status.busy && !writableWhileBusy off) = false := by
    obtain hb | hw := hd
    · simp [hb]
    · simp [hw]
  simp [State.writeWord, hkept, hl]

/-- A write to STATUS acts with BUSY 0 and with BUSY 1 (R26, R58). -/
theorem access_write_status (s : State) (w : Word) : s.access (wordWrite 0x00C#12 w) = s.acknowledge w :=
  (access_wordWrite s (by decide) w).trans (writeWord_of_not_dropped s w (l := .status) rfl (.inr rfl))

/-- A write to IRQ_EN acts with BUSY 0 and with BUSY 1 (R27, R58). -/
theorem access_write_irqEn (s : State) (w : Word) : s.access (wordWrite 0x010#12 w) = { s with ie := w.getLsbD 0 } :=
  (access_wordWrite s (by decide) w).trans (writeWord_of_not_dropped s w (l := .irqEn) rfl (.inr rfl))

/-- A write to CMD with BUSY 0 is an issue (R100). -/
theorem access_write_cmd {s : State} (hb : s.status.busy = false) (w : Word) :
    s.access (wordWrite 0x008#12 w) = s.issue w :=
  (access_wordWrite s (by decide) w).trans (writeWord_of_not_dropped s w (l := .cmd) rfl (.inl hb))

@[simp] theorem State.issue_status (s : State) (w : Word) : (s.issue w).status = s.status.issue := by
  obtain ⟨n, sc, h⟩ := issue_eq s w
  rw [h, State.issueAfter_status]

/-! What a step on the unit's turn and a host access do (R32, R102). -/

/-- A step on the unit's turn is a completion, with or without error (R102). -/
theorem step_on_unitTurn {s t : State} (hu : s.unitTurn = true) (h : step s = .next t) :
    (∃ res, t = s.completeOk res) ∨ (∃ c, t = s.takeError c) := by
  obtain ⟨-, ⟨i, -, hex⟩ | ⟨r, -, rfl⟩⟩ | ⟨hf, -⟩ := step_cases h
  · obtain ⟨r, hr⟩ := exec_completes i s
    obtain ⟨res, -, rfl⟩ | ⟨c, -, rfl⟩ := completeWith_next.mp (hr ▸ hex)
    · exact .inl ⟨res, rfl⟩
    · exact .inr ⟨c, rfl⟩
  · exact .inr ⟨_, rfl⟩
  · simp [hu] at hf

theorem hostAccess_results (s : State) (a : Access) (u : Nat) : (s.hostAccess a u).results = s.results :=
  access_results s a

theorem hostAccess_status (s : State) (a : Access) (u : Nat) : (s.hostAccess a u).status = (s.access a).status := rfl

/-! ID and CAP (R22, R23). -/

/-- Settles O39: both locations are no result state and their writes store nothing. -/
theorem idAndCapAreConstant : Obligations.IdAndCapAreConstant := by
  refine ⟨fun s => ⟨?_, ?_⟩, fun s w hb => ⟨?_, ?_⟩, by decide, by decide⟩
  · rw [respond_wordRead s (by decide), readWord_of_not_isResult s (l := .id) rfl rfl]
    rfl
  · rw [respond_wordRead s (by decide), readWord_of_not_isResult s (l := .cap) rfl rfl]
    rfl
  · exact (access_wordWrite s (by decide) w).trans (writeWord_of_not_dropped s w (l := .id) rfl (.inl hb))
  · exact (access_wordWrite s (by decide) w).trans (writeWord_of_not_dropped s w (l := .cap) rfl (.inl hb))

/-! STATUS and irq (R25, R26, R44). -/

/-- Bit vectors put side by side, as numbers: the low part takes the low places. -/
theorem toNat_append_add {m n : Nat} (x : BitVec m) (y : BitVec n) : (x ++ y).toNat = x.toNat * 2 ^ n + y.toNat := by
  rw [BitVec.toNat_append, ← Nat.shiftLeft_add_eq_or_of_lt y.isLt, Nat.shiftLeft_eq]

theorem flagBit_toNat (b : Bool) : (flagBit b).toNat = if b then 1 else 0 := by
  cases b <;> rfl

/-- Settles O45: the fields of the word are added up from the low end. -/
theorem statusWordHasItsFields : Obligations.StatusWordHasItsFields := by
  refine ⟨fun st => ?_, rfl, rfl, rfl, rfl, rfl, rfl, rfl, rfl⟩
  simp only [Status.word, toNat_append_add, flagBit_toNat, BitVec.toNat_ofNat]
  omega

/-- Bit 1 of the word written acknowledges the last completion (R26, R186). -/
theorem Status.clear_of_bit1_set (st : Status) {w : Word} (h1 : w.getLsbD 1 = true) :
    (st.clear w).done = false ∧ (st.clear w).err = false ∧ (st.clear w).errcode = .noError := by
  rw [Status.clear, h1]
  exact ⟨Bool.and_false _, Bool.and_false _, rfl⟩

theorem Status.clear_of_bit1_clear (st : Status) {w : Word} (h1 : w.getLsbD 1 = false) :
    (st.clear w).done = st.done ∧ (st.clear w).err = st.err ∧ (st.clear w).errcode = st.errcode := by
  rw [Status.clear, h1]
  exact ⟨Bool.and_true _, Bool.and_true _, rfl⟩

/-- Settles O46: the write is `Status.clear` in both BUSY states. -/
theorem statusWriteClearsFlags : Obligations.StatusWriteClearsFlags := by
  intro s w
  refine ⟨s.status.clear w, access_write_status s w, rfl,
    s.status.clear_of_bit1_set, s.status.clear_of_bit1_clear, fun h3 => ?_, fun h3 => ?_⟩
  · rw [Status.clear_wbusy, h3, Bool.not_true, Bool.and_false]
  · rw [Status.clear_wbusy, h3, Bool.not_false, Bool.and_true]

/-- Settles O48: each write clears IE or DONE, and every completion sets DONE and keeps IE. -/
theorem irqFollowsIeAndDone : Obligations.IrqFollowsIeAndDone := by
  refine ⟨fun s => rfl, fun s w h0 => ?_, fun s w h1 => ?_, fun s w hb => ?_, fun s t hu h => ?_⟩
  · rw [access_write_irqEn, State.irq, h0]
    exact ⟨rfl, rfl⟩
  · have hdone : (s.status.clear w).done = false := (s.status.clear_of_bit1_set h1).1
    rw [access_write_status, State.irq, State.acknowledge_status, hdone, Bool.and_false]
  · simp [access_write_cmd hb, State.irq]
  · obtain ⟨res, rfl⟩ | ⟨c, rfl⟩ := step_on_unitTurn hu h
    · simp [State.irq]
    · simp [State.irq]

/-! Who writes the result state (R32). -/

/-- Settles O52: a unit step is a completion, and of the host's statements only `rst` writes the result state. -/
theorem onlyCompletionAndResetWriteResults : Obligations.OnlyCompletionAndResetWriteResults := by
  refine ⟨fun s t h hne => ?_, access_results⟩
  obtain ⟨hu, -⟩ | ⟨hu, ⟨-, rfl⟩ | ⟨st, hst, hh⟩⟩ := step_cases h
  · have hbusy : s.status.busy = true := ((unitTurn_iff s).mp hu).1
    obtain ⟨res, rfl⟩ | ⟨c, rfl⟩ := step_on_unitTurn hu h
    · exact .inl ⟨hu, hbusy, rfl, rfl⟩
    · exact .inl ⟨hu, hbusy, rfl, rfl⟩
  · exact absurd rfl hne
  · obtain ⟨a, u, rfl⟩ | ⟨k, rfl⟩ | ⟨rfl, -⟩ := hostStmt_cases hh
    · exact absurd (by rw [hostAccess_results, State.tick_results]) hne
    · exact absurd (State.tick_results s) hne
    · exact .inr ⟨hu, hst⟩

/-! Legal STATUS (R25): each write of STATUS keeps it. -/

theorem Status.reset_legal : Status.reset.Legal := by decide

theorem Status.issue_legal (st : Status) : st.issue.Legal := by simp [Status.Legal]

theorem Status.Legal.drop {st : Status} (h : st.Legal) : st.drop.Legal := h

theorem Status.Legal.clear {st : Status} (h : st.Legal) (w : Word) : (st.clear w).Legal := by
  cases h1 : w.getLsbD 1 with
  | true =>
    obtain ⟨hd, he, hc⟩ := st.clear_of_bit1_set h1
    rw [Status.Legal, hd, he, hc]
    exact ⟨fun _ => ⟨rfl, rfl, rfl⟩, nofun, fun _ => rfl⟩
  | false =>
    obtain ⟨hd, he, hc⟩ := st.clear_of_bit1_clear h1
    rw [Status.Legal, Status.clear_busy, hd, he, hc]
    exact h

/-- A completion without error, of a command in flight. -/
theorem Status.Legal.complete {st : Status} (h : st.Legal) (hb : st.busy = true) : st.complete.Legal := by
  obtain ⟨hbusy, -, -⟩ := h
  obtain ⟨-, herr, hcode⟩ := hbusy hb
  simp [Status.Legal, herr, hcode]

theorem Status.error_complete_legal (st : Status) {c : ErrCode} (hc : c ≠ .noError) : (st.error c).complete.Legal := by
  simp [Status.Legal, hc]

/-- No access makes STATUS illegal (R26, R58, R100). -/
theorem access_status_legal {s : State} (h : s.status.Legal) (a : Access) : (s.access a).status.Legal := by
  obtain ⟨n, ha⟩ | ⟨w, ha⟩ := access_cases s a
  · rw [ha]; exact h
  · rw [ha]
    obtain hw | ⟨-, hw⟩ | ⟨-, hw⟩ | hw | hw | ⟨-, o, hw⟩ := writeWord_cases s a.offset w <;> rw [hw]
    · exact h
    · exact h.drop
    · rw [State.issue_status]; exact s.status.issue_legal
    · exact h.clear w
    · exact h
    · exact h

/-! The result state (R33 to R36, R46): each write of a command keeps it consistent. -/

/-- The result state's part of `State.Inv`. -/
structure Results.Consistent (r : Results) : Prop where
  fits : r.ResultFits
  generator : r.GeneratorHeld
  remCnt : r.remCnt.toNat ≤ 30

theorem State.inv_iff (s : State) : s.Inv ↔ s.status.Legal ∧ s.results.Consistent ∧ s.host.TempsOrdered :=
  ⟨fun ⟨hs, hf, hg, hr, ht⟩ => ⟨hs, ⟨hf, hg, hr⟩, ht⟩, fun ⟨hs, ⟨hf, hg, hr⟩, ht⟩ => ⟨hs, hf, hg, hr, ht⟩⟩

theorem Results.reset_consistent (n : Nat) : (Results.reset n).Consistent where
  fits := by simp [Results.ResultFits, Results.reset]
  generator := by simp [Results.GeneratorHeld, Results.reset]
  remCnt := by simp [Results.reset]

namespace Results.Consistent

variable {r : Results} (h : r.Consistent)
include h

theorem writeResult {v : BitVec 18} {n : BitVec 5} (hn : n = 0#5 ∨ n = 8#5 ∨ n = 15#5 ∨ n = 18#5)
    (hv : v.toNat < 2 ^ n.toNat) : (r.writeResult v n).Consistent where
  fits := ⟨hn, hv⟩
  generator := h.generator
  remCnt := h.remCnt

/-- RESULT written with an element of GF(256) or a byte of flags (R123 to R126). -/
theorem writeByte (b : Byte) : (r.writeResult (zext18 b) 8#5).Consistent :=
  h.writeResult (by simp) (by simp [zext18]; omega)

/-- GBUF written with the generator that GEN_DEG then names (R141). -/
theorem writeGenerator {e : Byte} (h1 : 1 ≤ e.toNat) (h30 : e.toNat ≤ 30) :
    (r.writeGenerator (genPoly e.toNat) e).Consistent where
  fits := h.fits
  generator := by
    have hlen : (genPoly e.toNat).length = e.toNat + 1 := genPoly_length h1
    refine ⟨h30, fun _ => ?_⟩
    calc (r.writeGenerator (genPoly e.toNat) e).generator e.toNat
      _ = (writePrefix r.gbuf (genPoly e.toNat)).toList.take (genPoly e.toNat).length := by rw [hlen]; rfl
      _ = genPoly e.toNat := writePrefix_take _ _ (by omega)
  remCnt := h.remCnt

theorem writeRemainder (d : List Byte) {e : Byte} (h30 : e.toNat ≤ 30) : (r.writeRemainder d e).Consistent where
  fits := h.fits
  generator := h.generator
  remCnt := h30

end Results.Consistent

/-! The commands (R102): each completes with a consistent result state or an error code. -/

/-- What a command may complete with: a consistent result state, or one of the codes 1..7. -/
def LegalCompletion : Except ErrCode Results → Prop
  | .ok res => res.Consistent
  | .error c => c ≠ .noError

/-- A format string has 15 bits (R161). -/
theorem fmtstr_lt : ∀ c < 4, ∀ m < 8, fmtstr c m < 2 ^ 15 := by decide +kernel

/-- Every command's checks let through only operands for which its writes are consistent. -/
theorem exec_completes_legally (i : Instr) {s : State} (h : s.results.Consistent) :
    ∃ r, exec i s = s.completeWith r ∧ LegalCompletion r := by
  cases i with
  | nop => exact ⟨.ok s.results, rfl, h⟩
  | gfmul => exact ⟨.ok _, rfl, h.writeByte _⟩
  | gf2mul => exact ⟨.ok _, rfl, h.writeByte _⟩
  | gflog => exact ⟨_, rfl, iteInduction (fun _ => ErrCode.noConfusion) fun _ => h.writeByte _⟩
  | gfexp => exact ⟨.ok _, rfl, h.writeByte _⟩
  | rsgen =>
    refine ⟨_, rfl, iteInduction (fun _ => ErrCode.noConfusion) fun hecc => ?_⟩
    rw [eccOutOfRange_iff] at hecc
    exact h.writeGenerator (by omega) (by omega)
  | rsrem =>
    refine ⟨_, rfl, iteInduction (fun _ => ErrCode.noConfusion) fun hecc => ?_⟩
    rw [eccOutOfRange_iff] at hecc
    refine iteInduction (fun _ => ErrCode.noConfusion) fun _ => iteInduction (fun _ => ErrCode.noConfusion) fun _ => ?_
    exact h.writeRemainder _ (by omega)
  | bchfmt =>
    refine ⟨_, rfl, iteInduction (fun _ => ErrCode.noConfusion) fun hcm => h.writeResult (by simp) ?_⟩
    rw [BitVec.toNat_ofNat]
    exact (Nat.mod_le _ _).trans_lt (fmtstr_lt _ (by omega) _ (by omega))
  | bchver =>
    refine ⟨_, rfl, iteInduction (fun _ => ErrCode.noConfusion) fun _ => iteInduction (fun _ => ?_) fun _ => ?_⟩
    · exact h.writeResult (by simp) (by simp)
    · exact h.writeResult (by simp) (BitVec.isLt _)

/-! The invariant (R25, R33, R34, R46). -/

theorem receive_tempsOrdered {h : HostAgent} (ho : h.TempsOrdered) (u : Nat) (r : BusResponse) :
    (h.receive u r).TempsOrdered := by
  obtain ⟨-, -, -, ht | ⟨w, -, ht⟩⟩ := receive_keeps h u r
  · rw [HostAgent.TempsOrdered, ht]; exact ho
  · rw [HostAgent.TempsOrdered, ht]; exact setTemp_keeps_order _ _ _ ho

/-- The completion of a command in flight keeps the invariant. -/
theorem completeWith_keeps_inv {s t : State} {r : Except ErrCode Results} (hi : s.Inv) (hb : s.status.busy = true)
    (hr : LegalCompletion r) (h : s.completeWith r = .next t) : t.Inv := by
  obtain ⟨hs, hc, ht⟩ := s.inv_iff.mp hi
  obtain ⟨res, rfl, rfl⟩ | ⟨c, rfl, rfl⟩ := completeWith_next.mp h
  · exact (State.inv_iff _).mpr ⟨hs.complete hb, hr, ht⟩
  · exact (State.inv_iff _).mpr ⟨s.status.error_complete_legal hr, hc, ht⟩

theorem tick_keeps_inv {s : State} (hi : s.Inv) : s.tick.Inv := by
  rw [tick_eq]; exact hi

/-- A statement of the host program keeps the invariant, a reset by the reset values. -/
theorem hostStmt_keeps_inv {s t : State} {st : Stmt} (hi : s.Inv) (h : s.hostStmt st = .next t) : t.Inv := by
  obtain ⟨hs, hc, ht⟩ := s.inv_iff.mp hi
  rw [State.inv_iff]
  obtain ⟨a, u, rfl⟩ | ⟨k, rfl⟩ | ⟨-, rfl⟩ := hostStmt_cases h
  · refine ⟨access_status_legal hs a, ?_, receive_tempsOrdered ht u _⟩
    rw [hostAccess_results]; exact hc
  · exact ⟨hs, hc, ht⟩
  · exact ⟨Status.reset_legal, Results.reset_consistent _, ht⟩

/-- Settles O51: STATUS, the result registers and the host's temporaries are 0 and empty. -/
theorem resetMeetsTheInvariant : Obligations.ResetMeetsTheInvariant :=
  State.reset.inv_iff.mpr ⟨Status.reset_legal, Results.reset_consistent 0, .nil⟩

/-- Settles O50: a step is a legal completion of a command in flight, nothing, or a statement of the host program. -/
theorem stepsKeepTheInvariant : Obligations.StepsKeepTheInvariant := by
  intro s t hi h
  obtain ⟨-, hc, -⟩ := s.inv_iff.mp hi
  obtain ⟨hu, hunit⟩ | ⟨-, ⟨-, rfl⟩ | ⟨st, -, hst⟩⟩ := step_cases h
  · have hbusy : s.status.busy = true := ((unitTurn_iff s).mp hu).1
    obtain ⟨i, -, hex⟩ | ⟨-, -, rfl⟩ := hunit
    · obtain ⟨r, hr, hlegal⟩ := exec_completes_legally i hc
      exact completeWith_keeps_inv hi hbusy hlegal (hr ▸ hex)
    · exact completeWith_keeps_inv hi hbusy (r := .error .illegalOp) ErrCode.noConfusion rfl
  · exact hi
  · exact hostStmt_keeps_inv (tick_keeps_inv hi) hst

end Sys2Proof.Machine
end


section
/-! Proofs of the statements of 20_memory.md: the window, its address map, reads, writes, bus errors and the host's turn. -/

namespace Sys2Proof.Machine

/-! The address map (R51): a location and its aligned offset determine each other. -/

theorem dbuf_offset_toNat (i : Fin 256) : (Loc.dbuf i).offset.toNat = 0x400 + 4 * i.val :=
  BitVec.toNat_ofNat _ _ |>.trans (Nat.mod_eq_of_lt (by omega))

theorem gbuf_offset_toNat (j : Fin 31) : (Loc.gbuf j).offset.toNat = 0x800 + 4 * j.val :=
  BitVec.toNat_ofNat _ _ |>.trans (Nat.mod_eq_of_lt (by omega))

theorem rbuf_offset_toNat (k : Fin 30) : (Loc.rbuf k).offset.toNat = 0xC00 + 4 * k.val :=
  BitVec.toNat_ofNat _ _ |>.trans (Nat.mod_eq_of_lt (by omega))

theorem offset_aligned (l : Loc) : l.offset.toNat % 4 = 0 := by
  cases l with
  | dbuf i => rw [dbuf_offset_toNat]; omega
  | gbuf j => rw [gbuf_offset_toNat]; omega
  | rbuf k => rw [rbuf_offset_toNat]; omega
  | id | cap | cmd | status | irqEn | opa | opb | ecc | len | result | rlen | genDeg | remCnt => rfl

theorem offset_of_regAt {n : Nat} {l : Loc} (h : regAt n = some l) : l.offset.toNat = 4 * n := by
  unfold regAt at h
  split at h <;> cases h <;> rfl

theorem regAt_eq_none_iff (n : Nat) : regAt n = none ↔ 12 < n := by
  constructor
  · intro h
    by_contra hle
    interval_cases n <;> cases h
  · intro hlt
    obtain ⟨m, rfl⟩ := Nat.exists_eq_add_of_le' hlt
    rfl

theorem locAt_offset (l : Loc) : locAt l.offset = some l := by
  cases l with
  | dbuf i =>
    have hn : (Loc.dbuf i).offset.toNat / 4 = 0x100 + i.val := by rw [dbuf_offset_toNat]; omega
    simp (disch := omega) only [locAt, hn, if_neg, dif_pos, Nat.add_sub_cancel_left]
  | gbuf j =>
    have hn : (Loc.gbuf j).offset.toNat / 4 = 0x200 + j.val := by rw [gbuf_offset_toNat]; omega
    simp (disch := omega) only [locAt, hn, if_neg, dif_pos, dif_neg, Nat.add_sub_cancel_left]
  | rbuf k =>
    have hn : (Loc.rbuf k).offset.toNat / 4 = 0x300 + k.val := by rw [rbuf_offset_toNat]; omega
    simp (disch := omega) only [locAt, hn, if_neg, dif_pos, dif_neg, Nat.add_sub_cancel_left]
  | id | cap | cmd | status | irqEn | opa | opb | ecc | len | result | rlen | genDeg | remCnt => rfl

theorem offset_of_locAt {off : BitVec 12} {l : Loc} (ha : off.toNat % 4 = 0) (h : locAt off = some l) :
    l.offset = off := by
  apply BitVec.eq_of_toNat_eq
  simp only [locAt] at h
  split_ifs at h
  · rw [offset_of_regAt h]; omega
  all_goals cases h
  · rw [dbuf_offset_toNat]; simp only; omega
  · rw [gbuf_offset_toNat]; simp only; omega
  · rw [rbuf_offset_toNat]; simp only; omega

theorem locAt_eq_none_iff {off : BitVec 12} (ha : off.toNat % 4 = 0) : locAt off = none ↔ Reserved off := by
  simp only [locAt]
  split_ifs
  · rw [regAt_eq_none_iff]; omega
  all_goals simp only [false_iff, true_iff]; omega

theorem locAt_of_reserved {off : BitVec 12} (h : Reserved off) : locAt off = none :=
  (locAt_eq_none_iff h.1).mpr h

/-- Settles O38: an aligned offset is four times its word number, and `locAt` splits on that number. -/
theorem addressMapIsOneToOne : Obligations.AddressMapIsOneToOne :=
  ⟨fun l => ⟨locAt_offset l, offset_aligned l⟩, fun _ _ => offset_of_locAt, fun _ => locAt_eq_none_iff⟩

/-! Aligned reads (R55, R56). -/

/-- With BUSY = 0 every location reads its value. -/
theorem readWord_of_idle {s : State} (hb : s.status.busy = false) (l : Loc) : s.readWord l.offset = l.value s := by
  simp [State.readWord, locAt_offset, hb]

theorem readWord_of_reserved (s : State) {off : BitVec 12} (h : Reserved off) : s.readWord off = 0#32 := by
  simp [State.readWord, locAt_of_reserved h]

/-- A location whose field is `x` zero-extended reads as the number `x`. -/
theorem readWord_toNat_of_field {s : State} {off : BitVec 12} {n : Nat} {x : BitVec n}
    (h : s.readWord off = x.setWidth 32) (hn : n ≤ 32) : (s.readWord off).toNat = x.toNat := by
  rw [h, BitVec.toNat_setWidth_of_le hn]

/-- With BUSY = 1 a read of result state is a draw cut to the field's width (R56, U2). -/
theorem readWord_draw_toNat {s : State} (hb : s.status.busy = true) {l : Loc} (hr : l.isResult = true) :
    (s.readWord l.offset).toNat = (Config.freeValue s.sched.draws).toNat % 2 ^ l.width := by
  have hdraw : s.readWord l.offset = l.draw s := by simp [State.readWord, locAt_offset, hb, hr]
  have hlt : (Config.freeValue s.sched.draws).toNat % 2 ^ l.width < 2 ^ 32 :=
    (Nat.mod_le _ _).trans_lt (BitVec.isLt _)
  rw [hdraw, Loc.draw, BitVec.toNat_setWidth, BitVec.toNat_setWidth, Nat.mod_eq_of_lt hlt]

theorem access_wordRead (s : State) {off : BitVec 12} (ha : off.toNat % 4 = 0) :
    s.access (wordRead off) = s.afterRead off :=
  if_pos (wordRead_served ha)

/-- A read is a draw only with BUSY = 1, and only at a location (R56). -/
theorem readIsDraw_iff (s : State) (off : BitVec 12) :
    s.readIsDraw off = true ↔ s.status.busy = true ∧ ∃ l, locAt off = some l ∧ l.isResult = true := by
  cases h : locAt off <;> simp [State.readIsDraw, h]

theorem afterRead_of_not_draw {s : State} {off : BitVec 12} (h : ¬ s.readIsDraw off = true) : s.afterRead off = s :=
  if_neg h

theorem afterRead_of_reserved (s : State) {off : BitVec 12} (h : Reserved off) : s.afterRead off = s := by
  apply afterRead_of_not_draw
  simp [readIsDraw_iff, locAt_of_reserved h]

/-- Settles O41: every location reads its value, but with BUSY = 1 result state reads a draw. -/
theorem alignedReadsReturnTheLocation : Obligations.AlignedReadsReturnTheLocation := by
  refine ⟨fun s => ?_, fun s hb => ?_, fun s hb => ?_, fun s off h => readWord_of_reserved s h, fun s off ha => ?_⟩
  · have always (l : Loc) (hr : l.isResult = false) : s.readWord l.offset = l.value s :=
      readWord_of_not_isResult s (locAt_offset l) hr
    have hie : (s.readWord Loc.irqEn.offset).toNat = if s.ie then 1 else 0 :=
      (readWord_toNat_of_field (always .irqEn rfl) (by decide)).trans (flagBit_toNat s.ie)
    exact ⟨congrArg BitVec.toNat (always .id rfl), congrArg BitVec.toNat (always .cap rfl), always .cmd rfl,
      always .status rfl, hie, readWord_toNat_of_field (always .opa rfl) (by decide),
      readWord_toNat_of_field (always .opb rfl) (by decide), readWord_toNat_of_field (always .ecc rfl) (by decide),
      readWord_toNat_of_field (always .len rfl) (by decide),
      fun i => readWord_toNat_of_field (always (.dbuf i) rfl) (by decide)⟩
  · have idle := readWord_of_idle hb
    exact ⟨readWord_toNat_of_field (idle .result) (by decide), readWord_toNat_of_field (idle .rlen) (by decide),
      readWord_toNat_of_field (idle .genDeg) (by decide), readWord_toNat_of_field (idle .remCnt) (by decide),
      fun j => readWord_toNat_of_field (idle (.gbuf j)) (by decide),
      fun k => readWord_toNat_of_field (idle (.rbuf k)) (by decide)⟩
  · exact ⟨readWord_draw_toNat hb (l := .result) rfl, readWord_draw_toNat hb (l := .rlen) rfl,
      readWord_draw_toNat hb (l := .genDeg) rfl, readWord_draw_toNat hb (l := .remCnt) rfl,
      fun j => readWord_draw_toNat hb (l := .gbuf j) rfl, fun k => readWord_draw_toNat hb (l := .rbuf k) rfl⟩
  · refine ⟨respond_wordRead s ha, ?_⟩
    rw [access_wordRead s ha]
    by_cases hd : s.readIsDraw off = true
    · obtain ⟨hbusy, -⟩ := (readIsDraw_iff s off).mp hd
      exact .inr ⟨hbusy, if_pos hd⟩
    · exact .inl (afterRead_of_not_draw hd)

/-! Aligned writes (R55, R57, R58). -/

@[simp] theorem State.issue_lcmd (s : State) (w : Word) : (s.issue w).lcmd = w := by
  obtain ⟨n, sc, h⟩ := issue_eq s w
  rw [h, State.issueAfter_lcmd]

theorem access_write_of_idle {s : State} (hb : s.status.busy = false) (l : Loc) (w : Word) :
    s.access (wordWrite l.offset w) = s.writeLoc l w :=
  (access_wordWrite s (offset_aligned l) w).trans (writeWord_of_not_dropped s w (locAt_offset l) (.inl hb))

theorem access_write_of_reserved {s : State} (hb : s.status.busy = false) {off : BitVec 12} (h : Reserved off) (w : Word) :
    s.access (wordWrite off w) = s := by
  rw [access_wordWrite s h.1]
  simp [State.writeWord, hb, locAt_of_reserved h]

theorem access_write_dropped {s : State} (hb : s.status.busy = true) {off : BitVec 12} (ha : off.toNat % 4 = 0)
    (hs : off ≠ 0x00C#12) (hi : off ≠ 0x010#12) (w : Word) : s.access (wordWrite off w) = s.dropWrite := by
  rw [access_wordWrite s ha]
  simp [State.writeWord, writableWhileBusy, hb, hs, hi]

/-- The writes of a location in a read-only range store nothing (R57). -/
theorem writeLoc_of_readOnly (s : State) {l : Loc} (h : ReadOnly l.offset) (w : Word) : s.writeLoc l w = s := by
  cases l with
  | id | cap | result | rlen | genDeg | remCnt | gbuf | rbuf => rfl
  | cmd | status | irqEn | opa | opb | ecc | len => exact absurd h (by decide)
  | dbuf i =>
    obtain ⟨-, h⟩ := h
    rw [dbuf_offset_toNat] at h
    omega

theorem access_write_of_readOnly {s : State} (hb : s.status.busy = false) {off : BitVec 12} (h : ReadOnly off) (w : Word) :
    s.access (wordWrite off w) = s := by
  cases hl : locAt off with
  | none => exact access_write_of_reserved hb ((locAt_eq_none_iff h.1).mp hl) w
  | some l =>
    obtain rfl := offset_of_locAt h.1 hl
    rw [access_write_of_idle hb, writeLoc_of_readOnly s h]

/-- Settles O42: each offset is a location's, and `State.writeLoc` says what its write does. -/
theorem alignedWritesStoreTheLowBits : Obligations.AlignedWritesStoreTheLowBits := by
  intro s w hb
  have writes := fun l => access_write_of_idle hb l w
  simp only [BitVec.ofNat_toNat]
  refine ⟨?_, writes .status, writes .irqEn, writes .opa, writes .opb, writes .ecc, writes .len, fun i => ?_, ?_⟩
  · rw [access_write_cmd hb]
    exact ⟨s.issue_lcmd w, s.issue_status w⟩
  · refine ⟨(s.operands.writeDbuf i w).dbuf, writes (.dbuf i), fun j => ?_⟩
    rw [Operands.writeDbuf_dbuf]
    simp [Vector.getElem_set, Fin.ext_iff, eq_comm]
  · rintro off (h | h)
    · exact access_write_of_readOnly hb h w
    · exact access_write_of_reserved hb h w

/-- Settles O43: a write to another offset is `State.dropWrite`, and no access while BUSY reaches the command in flight. -/
theorem writesWhileBusyAreDropped : Obligations.WritesWhileBusyAreDropped := by
  refine fun s hb => ⟨fun off w ha hs hi => access_write_dropped hb ha hs hi w,
    fun w => ⟨access_write_status s w, access_write_irqEn s w⟩, fun a => ?_⟩
  obtain ⟨hbusy, hlcmd, hops, -⟩ := access_while_busy s a hb
  exact ⟨hops, hlcmd, hbusy⟩

/-- Settles O44: no location stands at a reserved word, so STATUS and IRQ_EN do not either. -/
theorem reservedWordsReadZeroIgnoreWrites : Obligations.ReservedWordsReadZeroIgnoreWrites := by
  intro s off w h
  refine ⟨?_, ?_, fun hb => access_write_of_reserved hb h w, fun hb => access_write_dropped hb h.1 ?_ ?_ w⟩
  · rw [respond_wordRead s h.1, readWord_of_reserved s h]
  · rw [access_wordRead s h.1, afterRead_of_reserved s h]
  · rintro rfl; exact absurd h (by decide)
  · rintro rfl; exact absurd h (by decide)

/-! Bus errors (R52, R53). -/

theorem served_iff (a : Access) : a.served = true ↔ a.offset.toNat % 4 = 0 ∧ a.lanes = 0b1111#4 ∧ a.more = 0 := by
  simp [Access.served, and_assoc]

theorem access_of_not_served (s : State) {a : Access} (h : ¬ a.served = true) : s.access a = s := if_neg h

theorem respond_of_not_served (s : State) {a : Access} (h : ¬ a.served = true) : s.respond a = .busError a.offset :=
  if_neg h

theorem respond_of_served (s : State) {a : Access} (h : a.served = true) (off : BitVec 12) :
    s.respond a ≠ .busError off := by
  rw [State.respond, if_pos h]
  cases a.op with
  | read => exact BusResponse.noConfusion
  | write w => exact BusResponse.noConfusion

/-- Settles O40: the three faults of an access are the three ways not to be served. -/
theorem busErrorsChangeNothing : Obligations.BusErrorsChangeNothing := by
  refine ⟨fun s a hbad => ?_, fun s a ha hl hm => respond_of_served s ((served_iff a).mpr ⟨ha, hl, hm⟩)⟩
  have hns : ¬ a.served = true := by
    rw [served_iff]
    rintro ⟨ha, hl, hm⟩
    simp [ha, hl, hm] at hbad
  refine ⟨access_of_not_served s hns, respond_of_not_served s hns, fun t => ?_⟩
  rw [State.hostStmt, State.hostAccess, access_of_not_served s hns, respond_of_not_served s hns]
  rfl

/-! The window (R50). -/

theorem gfrbBase_aligned : gfrbBase % 4096 = 0 := by
  unfold gfrbBase
  exact Nat.mul_mod_left _ _

theorem hostAddress_in_window (off : BitVec 12) : gfrbBase ≤ hostAddress off ∧ hostAddress off < gfrbBase + 4096 := by
  have hlt := off.isLt
  unfold hostAddress
  omega

/-- Settles O37: inside the window the offset is the distance from the base, below 2^12. -/
theorem windowIsFourKiBAtTheBase : Obligations.WindowIsFourKiBAtTheBase := by
  refine ⟨gfrbBase_aligned, fun off => ?_, fun addr off h => ?_⟩
  · rw [windowOffset, if_pos (hostAddress_in_window off), hostAddress, Nat.add_sub_cancel_left, BitVec.ofNat_toNat,
      BitVec.setWidth_eq]
  · unfold windowOffset at h
    split_ifs at h with hin
    obtain rfl := Option.some.inj h
    rw [hostAddress, BitVec.toNat_ofNat]
    omega

/-! The host's turn (R62, R194). -/

theorem step_statement {s : State} {st : Stmt} (hu : s.unitTurn = false) (hst : s.host.prog[s.host.pc]? = some st) :
    step s = s.tick.hostStmt st := by
  rw [step_host hu, State.hostStep, hst]

/-- Settles O7: the host step ticks the delay with BUSY = 1 and runs the statement. -/
theorem hostTurnRunsTheNextStatement : Obligations.HostTurnRunsTheNextStatement := by
  refine ⟨fun s st hu hst hb => ?_, fun s st hu hst hb => ?_, fun s hu hn => ?_⟩
  · rw [step_statement hu hst, State.tick, if_neg (by simp [hb])]
  · rw [step_statement hu hst, State.tick, if_pos hb]
  · rw [step_host hu, State.hostStep, hn]

end Sys2Proof.Machine
end


section
/-! Proofs of the statements of 30_encoding.md: decoding and encoding, illegal words, the inputs and outputs of a command,
and the statements of a host program. -/

namespace Sys2Proof

/-! The fields of a command word as numbers (R80). -/

theorem opField_toNat (w : Word) : (opField w).toNat = w.toNat % 16 := by
  simp [opField, BitVec.extractLsb'_toNat]

theorem rsvField_toNat (w : Word) : (rsvField w).toNat = w.toNat / 16 := by
  have hlt : w.toNat / 16 < 2 ^ 28 := by omega
  rw [rsvField, BitVec.extractLsb'_toNat, Nat.shiftRight_eq_div_pow, Nat.mod_eq_of_lt hlt]

theorem encode_toNat (i : Instr) : (encode i).toNat = (opcode i).toNat := by
  cases i <;> rfl

/-! The opcode map on OP alone (R83). -/

theorem decodeOp_eq_ok_iff (n : Nat) (i : Instr) : decodeOp n = .ok i ↔ n = (opcode i).toNat := by
  constructor
  · intro h
    unfold decodeOp at h
    split at h <;> cases h <;> rfl
  · rintro rfl
    cases i <;> rfl

theorem decodeOp_of_nine_le {n : Nat} (h : 9 ≤ n) : decodeOp n = .error .reservedOp := by
  obtain ⟨m, rfl⟩ := Nat.exists_eq_add_of_le' h
  rfl

theorem nine_le_of_decodeOp_error {n : Nat} {r : DecodeReject} (h : decodeOp n = .error r) : 9 ≤ n := by
  by_contra hlt
  interval_cases n <;> cases h

/-! The decoder (R84, R85): RSV is checked first, then OP is looked up. -/

theorem decode_of_rsv_nonzero {w : Word} (h : w.toNat / 16 ≠ 0) : decode w = .error .rsvNonzero :=
  if_neg fun hz => h (by rw [← rsvField_toNat, hz]; rfl)

theorem decode_of_rsv_zero {w : Word} (h : w.toNat / 16 = 0) : decode w = decodeOp (w.toNat % 16) := by
  have hz : rsvField w = 0#28 := BitVec.eq_of_toNat_eq ((rsvField_toNat w).trans h)
  rw [decode, if_pos hz, opField_toNat]

theorem decode_eq_ok_iff (w : Word) (i : Instr) : decode w = .ok i ↔ w.toNat = (opcode i).toNat := by
  have hop : (opcode i).toNat < 16 := (opcode i).isLt
  by_cases h : w.toNat / 16 = 0
  · have hmod : w.toNat % 16 = w.toNat := by omega
    rw [decode_of_rsv_zero h, decodeOp_eq_ok_iff, hmod]
  · rw [decode_of_rsv_nonzero h]
    exact ⟨nofun, fun heq => absurd heq (by omega)⟩

/-- Settles O2: a word is a command's exactly when it is the command's OP value as a number. -/
theorem decodeAcceptsExactlyTheCommandWords : Obligations.DecodeAcceptsExactlyTheCommandWords := by
  intro w i
  rw [decode_eq_ok_iff, ← encode_toNat, BitVec.toNat_inj]

theorem decode_encode (i : Instr) : decode (encode i) = .ok i :=
  (decodeAcceptsExactlyTheCommandWords _ i).mpr rfl

/-- Settles O1: a word with RSV = 0 is the number of its OP value. -/
theorem decodeFollowsTheOpcodeMap : Obligations.DecodeFollowsTheOpcodeMap := by
  intro w
  have row (i : Instr) : w.toNat = (opcode i).toNat → decode w = .ok i := (decode_eq_ok_iff w i).mpr
  exact ⟨decode_of_rsv_nonzero, row .nop, row .gfmul, row .gf2mul, row .gflog, row .gfexp, row .rsgen, row .rsrem,
    row .bchfmt, row .bchver, fun hrsv hop => (decode_of_rsv_zero hrsv).trans (decodeOp_of_nine_le hop)⟩

/-- Settles O3: the written words are the commands' encodings. -/
theorem theNineWrittenWordsDecode : Obligations.TheNineWrittenWordsDecode :=
  ⟨decode_encode .nop, decode_encode .gfmul, decode_encode .gf2mul, decode_encode .gflog, decode_encode .gfexp,
    decode_encode .rsgen, decode_encode .rsrem, decode_encode .bchfmt, decode_encode .bchver⟩

/-! Illegal words (R84). -/

theorem decode_error_of_no_row {w : Word} (h : ∀ i, w ≠ encode i) : ∃ r, decode w = .error r := by
  cases hd : decode w with
  | error r => exact ⟨r, rfl⟩
  | ok i => exact absurd ((decodeAcceptsExactlyTheCommandWords w i).mp hd) (h i)

theorem fields_of_decode_error {w : Word} {r : DecodeReject} (h : decode w = .error r) :
    w.toNat / 16 ≠ 0 ∨ 9 ≤ w.toNat % 16 := by
  by_cases hrsv : w.toNat / 16 = 0
  · exact .inr (nine_le_of_decodeOp_error ((decode_of_rsv_zero hrsv).symm.trans h))
  · exact .inl hrsv

end Sys2Proof

namespace Sys2Proof.Machine

theorem step_of_illegal {s : State} {r : DecodeReject} (hu : s.unitTurn = true) (hd : decode s.lcmd = .error r) :
    step s = .next (s.takeError .illegalOp) := by
  rw [step_unit hu, hd]
  exact completeIllegal_eq s

/-- Settles O4: the issue takes any word, and on the unit's turn the decoder rejects it. -/
theorem illegalWordsCompleteWithIllegalOp : Obligations.IllegalWordsCompleteWithIllegalOp := by
  intro w hw
  obtain ⟨r, hd⟩ := decode_error_of_no_row hw
  refine ⟨fields_of_decode_error hd, fun s hb => ?_, fun s hu hl => step_of_illegal hu (hl ▸ hd)⟩
  rw [access_write_cmd hb, State.issue_status, State.issue_lcmd]
  exact ⟨rfl, rfl⟩

/-! What the polynomial commands write is what they answer: the entries past their outputs play no part (R82). -/

theorem remRounds_length (g : List Byte) (n : Nat) (r : List Byte) : (remRounds g n r).length = r.length - n := by
  induction n generalizing r with
  | zero => rfl
  | succ n ih => rw [remRounds, ih, remRound_length]; omega

/-- The remainder has one codeword fewer than its divisor (R145). -/
theorem rsrem_length (d g : List Byte) : (rsrem d g).length = g.length - 1 := by
  simp [rsrem, remRounds_length]

theorem generator_length (r : Results) {e : Nat} (h : e ≤ 30) : (r.generator e).length = e + 1 := by
  simp [Results.generator]; omega

theorem generator_of_writeGenerator (r : Results) {g : List Byte} {n : Nat} (e : Byte) (hg : g.length = n + 1)
    (hn : n ≤ 30) : (r.writeGenerator g e).generator n = g := by
  rw [Results.generator, Results.writeGenerator_gbuf, ← hg]
  exact writePrefix_take _ _ (by omega)

theorem remainder_of_writeRemainder (r : Results) {d : List Byte} {n : Nat} (e : Byte) (hd : d.length = n) (hn : n ≤ 30) :
    (r.writeRemainder d e).rbuf.toList.take n = d := by
  rw [Results.writeRemainder_rbuf, ← hd]
  exact writePrefix_take _ _ (by omega)

/-! Noninterference (R82): states with the same inputs complete alike. -/

/-- Two completions (R102) of a command, in `s` and in `s'`: the same error, or both OK with the same outputs. -/
inductive CompleteAlike (i : Instr) (s s' : State) : Except ErrCode Results → Except ErrCode Results → Prop where
  | error (c : ErrCode) : CompleteAlike i s s' (.error c) (.error c)
  | ok {r r' : Results} (h : SameOutputs i s.operands.ecc.toNat (s.completeOk r) (s'.completeOk r')) :
    CompleteAlike i s s' (.ok r) (.ok r')

/-- A check that reads the same in both states, followed by completions that are alike when it passes. -/
theorem CompleteAlike.check {i : Instr} {s s' : State} {p : Prop} [Decidable p] (c : ErrCode)
    {r r' : Except ErrCode Results} (h : ¬ p → CompleteAlike i s s' r r') :
    CompleteAlike i s s' (if p then .error c else r) (if p then .error c else r') := by
  by_cases hp : p
  · rw [if_pos hp, if_pos hp]; exact .error c
  · rw [if_neg hp, if_neg hp]; exact h hp

/-- A command's checks and its outputs read its inputs only. -/
theorem exec_of_same_inputs (i : Instr) {s s' : State} (h : SameInputs i s s') :
    ∃ r r', exec i s = s.completeWith r ∧ exec i s' = s'.completeWith r' ∧ CompleteAlike i s s' r r' := by
  cases i with
  | nop => exact ⟨.ok _, .ok _, rfl, rfl, .ok trivial⟩
  | gfmul =>
    obtain ⟨ha, hb⟩ := h
    refine ⟨.ok _, .ok _, rfl, rfl, .ok ⟨?_, rfl⟩⟩
    simp [ha, hb]
  | gf2mul =>
    obtain ⟨ha, hb⟩ := h
    refine ⟨.ok _, .ok _, rfl, rfl, .ok ⟨?_, rfl⟩⟩
    simp [ha, hb]
  | gflog =>
    have ha : s.operands.opa = s'.operands.opa := h
    refine ⟨_, _, rfl, rfl, ?_⟩
    rw [ha]
    exact .check _ fun _ => .ok ⟨rfl, rfl⟩
  | gfexp =>
    have ha : s.operands.opa = s'.operands.opa := h
    refine ⟨.ok _, .ok _, rfl, rfl, .ok ⟨?_, rfl⟩⟩
    simp [ha]
  | rsgen =>
    have he : s'.operands.ecc = s.operands.ecc := h.symm
    refine ⟨_, _, rfl, rfl, ?_⟩
    rw [he]
    refine .check _ fun hecc => .ok ⟨?_, rfl⟩
    rw [eccOutOfRange_iff] at hecc
    have hlen : (genPoly s.operands.ecc.toNat).length = s.operands.ecc.toNat + 1 := genPoly_length (by omega)
    exact (generator_of_writeGenerator _ _ hlen (by omega)).trans (generator_of_writeGenerator _ _ hlen (by omega)).symm
  | rsrem =>
    obtain ⟨he, hn, hdeg, hblock, hgen⟩ := h
    refine ⟨_, _, rfl, rfl, ?_⟩
    rw [← he, ← hn, ← hdeg, ← hblock, ← hgen]
    refine .check _ fun hecc => .check _ fun _ => .check _ fun _ => .ok ⟨?_, rfl⟩
    rw [eccOutOfRange_iff] at hecc
    have hlen (d : List Byte) :
        (rsrem d (s.results.generator s.operands.ecc.toNat)).length = s.operands.ecc.toNat := by
      rw [rsrem_length, generator_length _ (by omega)]; rfl
    exact (remainder_of_writeRemainder _ _ (hlen _) (by omega)).trans
      (remainder_of_writeRemainder _ _ (hlen _) (by omega)).symm
  | bchfmt =>
    obtain ⟨ha, hb⟩ := h
    refine ⟨_, _, rfl, rfl, ?_⟩
    rw [ha, hb]
    exact .check _ fun _ => .ok ⟨rfl, rfl⟩
  | bchver =>
    have ha : s.operands.opa = s'.operands.opa := h
    refine ⟨_, _, rfl, rfl, ?_⟩
    rw [ha]
    refine .check _ fun _ => ?_
    split
    · exact .ok ⟨rfl, rfl⟩
    · exact .ok ⟨rfl, rfl⟩

/-- A command in flight has no ERR or ERRCODE standing (R25). -/
theorem InFlight.no_error {s : State} (h : InFlight s) : s.status.err = false ∧ s.status.errcode = .noError := by
  obtain ⟨hbusy, hlegal, -⟩ := h
  exact (hlegal hbusy).2

/-- Settles O12: the completions are alike, and STATUS holds no earlier error that could differ. -/
theorem outputsDependOnlyOnTheInputs : Obligations.OutputsDependOnlyOnTheInputs := by
  intro i s s' t t' hf hf' hin ht ht'
  obtain ⟨r, r', hr, hr', hlike⟩ := exec_of_same_inputs i hin
  rw [hr] at ht
  rw [hr'] at ht'
  cases hlike with
  | error c =>
    cases ht
    cases ht'
    exact ⟨rfl, rfl, nofun⟩
  | ok hout =>
    cases ht
    cases ht'
    obtain ⟨he, hc⟩ := hf.no_error
    obtain ⟨he', hc'⟩ := hf'.no_error
    exact ⟨he.trans he'.symm, hc.trans hc'.symm, fun _ => hout⟩

/-! The statements of a host program (R86, R87). -/

theorem respond_wordWrite (s : State) {off : BitVec 12} (ha : off.toNat % 4 = 0) (w : Word) :
    s.respond (wordWrite off w) = .ack :=
  if_pos (wordWrite_served ha w)

theorem hostStmt_wr (s : State) (l : Loc) (v : Word) : s.hostStmt (.wr l v) = .next
    { s.access (wordWrite l.offset v) with host := { s.host with pc := s.host.pc + 1, resp := some .ack } } := by
  have hack : s.respond (writeAccess l v) = .ack := respond_wordWrite s (offset_aligned l) v
  rw [State.hostStmt, State.hostAccess, hack]
  rfl

theorem hostStmt_rd (s : State) (l : Loc) (t : Nat) : s.hostStmt (.rd l t) = .next
    { s.afterRead l.offset with
      host := { s.host with pc := s.host.pc + 1, temps := setTemp s.host.temps t (s.readWord l.offset),
                            resp := some (.data (s.readWord l.offset)) } } := by
  have hdata : s.respond (readAccess l) = .data (s.readWord l.offset) := respond_wordRead s (offset_aligned l)
  have hafter : s.access (readAccess l) = s.afterRead l.offset := access_wordRead s (offset_aligned l)
  rw [State.hostStmt, State.hostAccess, hdata, hafter]
  rfl

theorem branchTaken_iff (h : HostAgent) (t : Nat) (m v : Word) :
    branchTaken h t m v = true ↔ getTemp h.temps t &&& m ≠ v :=
  bne_iff_ne

theorem hostStmt_bne_taken {s : State} {t n k : Nat} {m v : Word} (h : getTemp s.host.temps t &&& m ≠ v)
    (hk : labelIndex s.host.prog n = some k) :
    s.hostStmt (.bne t m v n) = .next { s with host := { s.host with pc := k } } := by
  rw [State.hostStmt, if_pos ((branchTaken_iff ..).mpr h), hk]

theorem hostStmt_bne_not_taken {s : State} {t : Nat} {m v : Word} (h : getTemp s.host.temps t &&& m = v) (n : Nat) :
    s.hostStmt (.bne t m v n) = .next { s with host := s.host.advance } := by
  rw [State.hostStmt, if_neg fun hb => (branchTaken_iff ..).mp hb h]

/-- A label's index is where the program has the label. -/
theorem getElem?_of_labelIndex {prog : List Stmt} {n k : Nat} (h : labelIndex prog n = some k) :
    prog[k]? = some (.label n) := by
  induction prog generalizing k with
  | nil => cases h
  | cons st rest ih =>
    unfold labelIndex at h
    split at h
    · next hst =>
      cases h
      exact congrArg some hst
    · obtain ⟨j, hj, rfl⟩ := Option.map_eq_some_iff.mp h
      exact ih hj

/-- Settles O56: WR and RD are the served access of their location, and a branch goes to its label's index. -/
theorem hostStatementsDoTheirAccess : Obligations.HostStatementsDoTheirAccess := by
  refine ⟨hostStmt_wr, fun s l t => ⟨_, hostStmt_rd s l t, ?_⟩, fun _ _ => rfl, fun _ _ => rfl, fun _ _ => rfl,
    fun s t m v n k hne hk => ⟨hostStmt_bne_taken hne hk, getElem?_of_labelIndex hk⟩,
    fun s t m v n heq => hostStmt_bne_not_taken heq n⟩
  obtain ⟨d, hd⟩ := afterRead_eq s l.offset
  rw [hd]
  exact ⟨getTemp_setTemp_same _ t _, fun u hu => getTemp_setTemp_other _ t u _ hu, rfl, rfl, rfl, rfl⟩

end Sys2Proof.Machine
end


section
/-! Proofs of the statements of 40_issue_and_nop.md: issue, the command in flight and its completion, and NOP. -/

namespace Sys2Proof.Machine

/-! Issue (R100): by the write to CMD, and of a word placed from outside. -/

/-- Settles O8: the issue moves LCMD, STATUS and the schedule; with BUSY = 1 the write is `State.dropWrite`. -/
theorem cmdWriteIssuesTheWord : Obligations.CmdWriteIssuesTheWord := by
  refine ⟨fun s w hb => ?_, fun s w hb => access_write_dropped hb (by decide) (by decide) (by decide) w⟩
  obtain ⟨n, sc, h⟩ := issue_eq s w
  exact ⟨{ sc with wait := n }, (access_write_cmd hb w).trans h⟩

theorem withFetchWord_eq (s : State) (w : Word) : s.withFetchWord 32 w.toNat = s.issueNow w := by
  rw [State.withFetchWord, Nat.mod_eq_of_lt w.isLt, BitVec.ofNat_toNat, BitVec.setWidth_eq]

theorem issueNow_inFlight (s : State) (w : Word) : InFlight (s.issueNow w) :=
  ⟨rfl, s.status.issue_legal⟩

/-! The unit's turn (R101, R102). -/

/-- Settles O5: the two conditions are the unit's turn, on which the step looks LCMD up. -/
theorem unitTurnRunsTheDecodedCommand : Obligations.UnitTurnRunsTheDecodedCommand := by
  intro s i hb hturn hd
  rw [step_unit ((unitTurn_iff s).mpr ⟨hb, hturn⟩), hd]

theorem step_issueNow (s : State) (i : Instr) : step (s.issueNow (encode i)) = exec i (s.issueNow (encode i)) :=
  unitTurnRunsTheDecodedCommand _ i rfl (.inl rfl) (decode_encode i)

/-- Settles O6: the word is issued with delay 0. -/
theorem aFetchWordRunsNext : Obligations.AFetchWordRunsNext := by
  intro s i
  rw [withFetchWord_eq]
  exact ⟨rfl, rfl, rfl, rfl, step_issueNow s i⟩

/-! Completion without error (R103). -/

/-- The flags of a completion, of a command in flight: no error stands from before. -/
theorem InFlight.complete_eq_okAfter {s : State} (h : InFlight s) : s.status.complete = s.status.okAfter := by
  obtain ⟨herr, hcode⟩ := h.no_error
  rw [Status.complete, herr, hcode]
  rfl

theorem Status.okAfter_word_toNat (st : Status) : st.okAfter.word.toNat = if st.wbusy then 0xA else 0x2 := by
  rw [statusWordHasItsFields.1]
  cases h : st.wbusy <;> simp [Status.okAfter, ErrCode.bits, h]

/-- The completion `r` of a command (R102) writes at most the command's outputs; one with an error writes no result state. -/
def WritesOutputsOnly (i : Instr) (s : State) : Except ErrCode Results → Prop
  | .ok res => OutputsOnly i s (s.completeOk res)
  | .error _ => True

/-- RSGEN's generator ends at GBUF[ECC] (R141). -/
theorem writeGenerator_outputsOnly {s : State} (h1 : 1 ≤ s.operands.ecc.toNat) :
    WritesOutputsOnly .rsgen s (.ok (s.results.writeGenerator (genPoly s.operands.ecc.toNat) s.operands.ecc)) := by
  refine ⟨rfl, fun j hj => writePrefix_keeps _ _ j.val j.isLt ?_⟩
  rw [genPoly_length h1]
  exact hj

/-- RSREM's remainder ends before RBUF[ECC] (R146). -/
theorem writeRemainder_outputsOnly {s : State} (h30 : s.operands.ecc.toNat ≤ 30) (d : List Byte) :
    WritesOutputsOnly .rsrem s (.ok (s.results.writeRemainder
      (rsrem d (s.results.generator s.operands.ecc.toNat)) s.operands.ecc)) := by
  refine ⟨rfl, fun k hk => writePrefix_keeps _ _ k.val k.isLt ?_⟩
  rw [rsrem_length, generator_length _ h30]
  exact hk

/-- Every command completes with its outputs written and nothing else, or with an error (R82, R103). -/
theorem exec_writes_outputs_only (i : Instr) (s : State) :
    ∃ r, exec i s = s.completeWith r ∧ WritesOutputsOnly i s r := by
  cases i with
  | nop => exact ⟨.ok _, rfl, rfl⟩
  | gfmul => exact ⟨.ok _, rfl, rfl⟩
  | gf2mul => exact ⟨.ok _, rfl, rfl⟩
  | gflog => exact ⟨_, rfl, iteInduction (fun _ => trivial) fun _ => rfl⟩
  | gfexp => exact ⟨.ok _, rfl, rfl⟩
  | rsgen =>
    refine ⟨_, rfl, iteInduction (fun _ => trivial) fun hecc => ?_⟩
    rw [eccOutOfRange_iff] at hecc
    exact writeGenerator_outputsOnly (by omega)
  | rsrem =>
    refine ⟨_, rfl, iteInduction (fun _ => trivial) fun hecc => ?_⟩
    rw [eccOutOfRange_iff] at hecc
    refine iteInduction (fun _ => trivial) fun _ => iteInduction (fun _ => trivial) fun _ => ?_
    exact writeRemainder_outputsOnly (by omega) _
  | bchfmt => exact ⟨_, rfl, iteInduction (fun _ => trivial) fun _ => rfl⟩
  | bchver =>
    exact ⟨_, rfl, iteInduction (fun _ => trivial) fun _ => iteInduction (fun _ => rfl) fun _ => rfl⟩

/-- Settles O9: with ERR = 0 the completion is OK, and its result state differs in the outputs alone. -/
theorem successChangesOnlyTheOutputs : Obligations.SuccessChangesOnlyTheOutputs := by
  intro i s t hf h herr
  obtain ⟨r, hr, hout⟩ := exec_writes_outputs_only i s
  obtain ⟨res, rfl, rfl⟩ | ⟨c, rfl, rfl⟩ := completeWith_next.mp (hr ▸ h)
  · have hst : (s.completeOk res).status = s.status.okAfter := hf.complete_eq_okAfter
    refine ⟨hst, ?_, ⟨rfl, rfl, rfl, rfl, rfl⟩, hout⟩
    rw [hst, Status.okAfter_word_toNat]
  · cases herr

/-! NOP (R106). -/

theorem exec_nop {s : State} (hf : InFlight s) : exec .nop s = .next { s with status := s.status.okAfter } := by
  rw [← hf.complete_eq_okAfter]
  rfl

/-- Settles O14: from reset NOP's word is issued with delay 0 and completes in the next step. -/
theorem nopCompletes : Obligations.NopCompletes := by
  refine ⟨fun s hf => exec_nop hf, rfl, ?_⟩
  have hissue : State.reset.withFetchWord 32 0 = State.reset.issueNow (encode .nop) := withFetchWord_eq _ (encode .nop)
  rw [hissue, step_issueNow, exec_nop (issueNow_inFlight _ _)]
  exact ⟨_, rfl, rfl, rfl, rfl, rfl⟩

/-! The command in flight over a step (R58, R104): it completes, a reset abandons it, or it stays as it is. -/

/-- A command is in flight in `t`, and it is the one of `s`, with the operand and result state it had there. -/
structure StaysInFlight (s t : State) : Prop where
  busy : t.status.busy = true
  lcmd : t.lcmd = s.lcmd
  operands : t.operands = s.operands
  results : t.results = s.results

theorem StaysInFlight.of_tick {s t : State} (h : StaysInFlight s.tick t) : StaysInFlight s t :=
  ⟨h.busy, h.lcmd.trans s.tick_lcmd, h.operands.trans s.tick_operands, h.results.trans s.tick_results⟩

/-- No statement of the host program but `rst` reaches the command in flight or its delay. -/
theorem hostStmt_while_busy {s t : State} {st : Stmt} (hb : s.status.busy = true) (hr : st ≠ .rst)
    (h : s.hostStmt st = .next t) : StaysInFlight s t ∧ t.sched.wait = s.sched.wait := by
  obtain ⟨a, u, rfl⟩ | ⟨k, rfl⟩ | ⟨hrst, -⟩ := hostStmt_cases h
  · obtain ⟨hbusy, hlcmd, hops, hwait⟩ := access_while_busy s a hb
    exact ⟨⟨hbusy, hlcmd, hops, hostAccess_results s a u⟩, hwait⟩
  · exact ⟨⟨hb, rfl, rfl, rfl⟩, rfl⟩
  · exact absurd hrst hr

theorem hostStmt_rst_busy {s t : State} (h : s.hostStmt .rst = .next t) : t.status.busy = false := by
  cases h
  rfl

/-- A delay that is not over and a statement left: what BUSY off the unit's turn means (R101). -/
theorem waits_of_not_unitTurn {s : State} (hb : s.status.busy = true) (hu : s.unitTurn = false) :
    0 < s.sched.wait ∧ s.host.pc < s.host.prog.length := by
  have hno : ¬ (s.status.busy = true ∧ (s.sched.wait = 0 ∨ s.host.prog.length ≤ s.host.pc)) := by
    rw [← unitTurn_iff, hu]
    exact Bool.false_ne_true
  have := not_and.mp hno hb
  omega

/-- What a step does to a command in flight. -/
theorem step_in_flight {s t : State} (hb : s.status.busy = true) (h : step s = .next t) :
    (∃ res, t = s.completeOk res) ∨ (∃ c, t = s.takeError c) ∨
    (s.unitTurn = false ∧ s.host.prog[s.host.pc]? = some .rst ∧ t.status.busy = false) ∨
    (StaysInFlight s t ∧ s.sched.wait = t.sched.wait + 1) := by
  obtain ⟨hu, -⟩ | ⟨hu, hhost⟩ := step_cases h
  · obtain hok | herr := step_on_unitTurn hu h
    · exact .inl hok
    · exact .inr (.inl herr)
  · obtain ⟨hwait, hpc⟩ := waits_of_not_unitTurn hb hu
    obtain ⟨hnone, -⟩ | ⟨st, hst, hh⟩ := hhost
    · exact absurd (List.getElem?_eq_none_iff.mp hnone) (by omega)
    · by_cases hr : st = .rst
      · subst hr
        exact .inr (.inr (.inl ⟨hu, hst, hostStmt_rst_busy hh⟩))
      · have hbtick : s.tick.status.busy = true := by rw [State.tick_status, hb]
        obtain ⟨hstays, hw⟩ := hostStmt_while_busy hbtick hr hh
        rw [tick_wait s hb] at hw
        exact .inr (.inr (.inr ⟨hstays.of_tick, by omega⟩))

/-- Settles O53: a completion writes neither operand state nor LCMD, and a host step that is no reset leaves the command in flight. -/
theorem operandsAreFrozenInFlight : Obligations.OperandsAreFrozenInFlight := by
  intro s t hb h hnr
  obtain ⟨res, rfl⟩ | ⟨c, rfl⟩ | ⟨hu, hrst, -⟩ | ⟨hstays, -⟩ := step_in_flight hb h
  · exact ⟨rfl, rfl, nofun⟩
  · exact ⟨rfl, rfl, nofun⟩
  · obtain hturn | hne := hnr
    · simp [hu] at hturn
    · exact absurd hrst hne
  · exact ⟨hstays.operands, hstays.lcmd, fun _ => hstays.results⟩

/-! Every step answers a next state when the host program has the labels it branches to (R87, R180). -/

theorem labelIndex_of_mem_labelsOf {prog : List Stmt} {n : Nat} (h : n ∈ labelsOf prog) :
    ∃ k, labelIndex prog n = some k := by
  induction prog with
  | nil => cases h
  | cons st rest ih =>
    by_cases hst : st = .label n
    · exact ⟨0, if_pos hst⟩
    · have hrest : n ∈ labelsOf rest := by
        cases st with
        | label m =>
          obtain rfl | hmem := List.mem_cons.mp h
          · exact absurd rfl hst
          · exact hmem
        | wr | rd | issue | issueWord | bne | raw | rst => exact h
      obtain ⟨k, hk⟩ := ih hrest
      exact ⟨k + 1, by rw [labelIndex, if_neg hst, hk]; rfl⟩

theorem target_mem_targetsOf {prog : List Stmt} {t n : Nat} {m v : Word} (h : .bne t m v n ∈ prog) :
    n ∈ targetsOf prog := by
  induction prog with
  | nil => cases h
  | cons st rest ih =>
    obtain rfl | hmem := List.mem_cons.mp h
    · exact List.mem_cons_self
    · cases st with
      | bne => exact List.mem_cons_of_mem _ (ih hmem)
      | wr | rd | issue | issueWord | label | raw | rst => exact ih hmem

theorem labelIndex_of_target {prog : List Stmt} {t n : Nat} {m v : Word} (hl : labelsDefined prog = true)
    (h : .bne t m v n ∈ prog) : ∃ k, labelIndex prog n = some k := by
  have hn := List.all_eq_true.mp hl n (target_mem_targetsOf h)
  exact labelIndex_of_mem_labelsOf (List.contains_iff_mem.mp hn)

theorem hostStmt_answers {s : State} {st : Stmt} (hl : labelsDefined s.host.prog = true) (hst : st ∈ s.host.prog) :
    ∃ t, s.hostStmt st = .next t := by
  cases st with
  | wr | rd | issue | issueWord | label | raw | rst => exact ⟨_, rfl⟩
  | bne t m v n =>
    by_cases htaken : getTemp s.host.temps t &&& m = v
    · exact ⟨_, hostStmt_bne_not_taken htaken n⟩
    · obtain ⟨k, hk⟩ := labelIndex_of_target hl hst
      exact ⟨_, hostStmt_bne_taken htaken hk⟩

theorem step_answers {s : State} (hl : labelsDefined s.host.prog = true) : ∃ t, step s = .next t := by
  cases hu : s.unitTurn with
  | true =>
    cases hd : decode s.lcmd with
    | ok i =>
      obtain ⟨r, hr⟩ := exec_completes i s
      rw [step_unit hu, hd]
      exact (completeWith_answers s r).imp fun _ ht => hr.trans ht
    | error r => exact ⟨_, step_of_illegal hu hd⟩
  | false =>
    cases hst : s.host.prog[s.host.pc]? with
    | none => exact ⟨s, by rw [step_host hu, State.hostStep, hst]⟩
    | some st =>
      rw [step_statement hu hst]
      rw [← State.tick_host s] at hl hst
      exact hostStmt_answers hl (List.mem_of_getElem? hst)

/-- The host program is fixed: a completion leaves the host, and a statement moves only its position and data (R87). -/
theorem step_keeps_prog {s t : State} (h : step s = .next t) : t.host.prog = s.host.prog := by
  obtain ⟨hu, -⟩ | ⟨-, ⟨-, rfl⟩ | ⟨st, -, hh⟩⟩ := step_cases h
  · obtain ⟨res, rfl⟩ | ⟨c, rfl⟩ := step_on_unitTurn hu h
    · rfl
    · rfl
  · rfl
  · rw [← State.tick_host s]
    obtain ⟨a, u, rfl⟩ | ⟨k, rfl⟩ | ⟨-, rfl⟩ := hostStmt_cases hh
    · exact (receive_keeps s.tick.host u (s.tick.respond a)).1
    · rfl
    · rfl

/-! The command in flight ends (R105). -/

theorem run_succ_of_step {M : Host.Core} {s t : M.State} (h : M.step s = .next t) (k : Nat) :
    M.run (k + 1) s = M.run k t := by
  rw [Host.Core.run, h]

/-- Settles O54, by induction on the delay: a step ends the command or lowers its delay. -/
theorem commandsInFlightComplete : Obligations.CommandsInFlightComplete := by
  intro s hl hb
  induction hw : s.sched.wait using Nat.strongRecOn generalizing s with
  | ind n ih =>
    obtain ⟨t, ht⟩ := step_answers hl
    have ends (hbt : t.status.busy = false) :
        ∃ (k : Nat) (t : State), k ≤ n + 1 ∧ Host.Core.run Sys2Proof.core k s = .next t ∧ t.status.busy = false :=
      ⟨1, t, by omega, run_succ_of_step ht 0, hbt⟩
    obtain ⟨res, rfl⟩ | ⟨c, rfl⟩ | ⟨-, -, hbt⟩ | ⟨hstays, hwait⟩ := step_in_flight hb ht
    · exact ends rfl
    · exact ends rfl
    · exact ends hbt
    · obtain ⟨k, u, hk, hrun, hu⟩ :=
        ih t.sched.wait (by omega) t (by rw [step_keeps_prog ht]; exact hl) hstays.busy rfl
      exact ⟨k + 1, u, by omega, (run_succ_of_step ht k).trans hrun, hu⟩

end Sys2Proof.Machine
end

section
/-! Proofs of the statements of 41_gf256.md: the EXP and LOG ROMs, the product and its field laws, and the commands GFMUL,
GF2MUL, GFLOG and GFEXP. -/

namespace Sys2Proof.Machine

/-! Doubling in GF(256): multiplication by alpha = 2 (R13, R120). -/

/-- One round of the construction R120 on a codeword: double, and reduce by GF_POLY when x^8 falls out. -/
def timesAlpha (a : Byte) : Byte := a <<< 1 ^^^ if a.msb then 0x1D#8 else 0#8

theorem timesAlpha_toNat : ∀ a : Byte, (timesAlpha a).toNat = expStep a.toNat := by decide +kernel

@[simp] theorem timesAlpha_zero : timesAlpha 0#8 = 0#8 := by decide

theorem timesAlpha_xor (a b : Byte) : timesAlpha (a ^^^ b) = timesAlpha a ^^^ timesAlpha b := by
  have hreduce : (if (a.msb ^^ b.msb) then 0x1D#8 else 0#8) =
      (if a.msb then 0x1D#8 else 0#8) ^^^ (if b.msb then 0x1D#8 else 0#8) := by
    cases a.msb <;> cases b.msb <;> rfl
  rw [timesAlpha, timesAlpha, timesAlpha, BitVec.shiftLeft_xor_distrib, BitVec.msb_xor, hreduce]
  ac_rfl

/-! The ROMs (R120, R121): the facts that are read off the tables; the rest follows from them. -/

theorem timesAlpha_expAt : ∀ e < 255, timesAlpha (expAt e) = expAt (e + 1) := by decide +kernel

theorem expAt_last : expAt 255 = expAt 0 := by decide +kernel

theorem logAt_expAt : ∀ e < 255, (logAt (expAt e)).toNat = e := by decide +kernel

theorem expAt_ne_zero : ∀ e < 256, expAt e ≠ 0#8 := by decide +kernel

theorem logAt_lt_and_expAt_logAt : ∀ v : Byte, v ≠ 0#8 → (logAt v).toNat < 255 ∧ expAt (logAt v).toNat = v := by
  decide +kernel

theorem logAt_lt {v : Byte} (hv : v ≠ 0#8) : (logAt v).toNat < 255 := (logAt_lt_and_expAt_logAt v hv).1

theorem expAt_logAt {v : Byte} (hv : v ≠ 0#8) : expAt (logAt v).toNat = v := (logAt_lt_and_expAt_logAt v hv).2

@[simp] theorem logAt_one : logAt 1#8 = 0#8 := rfl

/-- Alpha to the n, the exponent reduced mod 255 (R122). -/
def alphaPow (n : Nat) : Byte := expAt (n % 255)

theorem alphaPow_ne_zero (n : Nat) : alphaPow n ≠ 0#8 := expAt_ne_zero _ (by omega)

theorem logAt_alphaPow (n : Nat) : (logAt (alphaPow n)).toNat = n % 255 := logAt_expAt _ (by omega)

theorem exists_alphaPow {a : Byte} (ha : a ≠ 0#8) : ∃ n, a = alphaPow n := by
  refine ⟨(logAt a).toNat, ?_⟩
  rw [alphaPow, Nat.mod_eq_of_lt (logAt_lt ha), expAt_logAt ha]

theorem alphaPow_zero : alphaPow 0 = 1#8 := rfl

theorem alphaPow_succ (n : Nat) : alphaPow (n + 1) = timesAlpha (alphaPow n) := by
  rw [alphaPow, alphaPow, timesAlpha_expAt _ (by omega)]
  obtain hlast | hlt : n % 255 = 254 ∨ n % 255 < 254 := by omega
  · have hwrap : (n + 1) % 255 = 0 := by omega
    rw [hwrap, hlast, expAt_last]
  · have hnext : (n + 1) % 255 = n % 255 + 1 := by omega
    rw [hnext]

/-- Settles O15, by induction on the exponent: the table doubles from entry to entry as the construction does. -/
theorem expTableFollowsItsConstruction : Obligations.ExpTableFollowsItsConstruction := by
  refine ⟨by decide +kernel, fun ⟨e, he⟩ => ?_, expAt_last, rfl⟩
  induction e with
  | zero => rfl
  | succ e ih => rw [← timesAlpha_expAt e (by omega), timesAlpha_toNat, ih (by omega), expBuilt]

/-- Settles O16: an exponent below 255 is the logarithm of its power, so it is unique. -/
theorem logIsTheUniqueExponent : Obligations.LogIsTheUniqueExponent := by
  refine ⟨fun v hv => ⟨Nat.le_of_lt_succ (logAt_lt hv), expAt_logAt hv, fun e he hev => ?_⟩, logAt_one⟩
  rw [← hev, logAt_expAt e (by omega)]

/-! The product (R122) and its laws (R127): a nonzero codeword is a power of alpha, and the product adds the exponents. -/

theorem gfmul_alphaPow (m n : Nat) : gfmul (alphaPow m) (alphaPow n) = alphaPow (m + n) := by
  rw [gfmul_nonzero (alphaPow_ne_zero m) (alphaPow_ne_zero n), logAt_alphaPow, logAt_alphaPow, gfOrder, ← Nat.add_mod]
  rfl

theorem gfmul_comm (a b : Byte) : gfmul a b = gfmul b a := by
  simp only [gfmul, or_comm, Nat.add_comm]

theorem gfmul_assoc (a b c : Byte) : gfmul (gfmul a b) c = gfmul a (gfmul b c) := by
  by_cases ha : a = 0#8
  · simp [ha]
  by_cases hb : b = 0#8
  · simp [hb]
  by_cases hc : c = 0#8
  · simp [hc]
  obtain ⟨i, rfl⟩ := exists_alphaPow ha
  obtain ⟨j, rfl⟩ := exists_alphaPow hb
  obtain ⟨k, rfl⟩ := exists_alphaPow hc
  simp only [gfmul_alphaPow, Nat.add_assoc]

@[simp] theorem gfmul_one_right (a : Byte) : gfmul a 1#8 = a := by
  by_cases ha : a = 0#8
  · simp [ha]
  · obtain ⟨n, rfl⟩ := exists_alphaPow ha
    exact gfmul_alphaPow n 0

@[simp] theorem gfmul_one_left (a : Byte) : gfmul 1#8 a = a := by rw [gfmul_comm, gfmul_one_right]

theorem gfmul_timesAlpha (a b : Byte) : gfmul (timesAlpha a) b = timesAlpha (gfmul a b) := by
  by_cases ha : a = 0#8
  · simp [ha]
  by_cases hb : b = 0#8
  · simp [hb]
  obtain ⟨i, rfl⟩ := exists_alphaPow ha
  obtain ⟨j, rfl⟩ := exists_alphaPow hb
  rw [← alphaPow_succ, gfmul_alphaPow, gfmul_alphaPow, ← alphaPow_succ, Nat.add_right_comm]

/-- Multiplying by a power of alpha is doubling again and again, and doubling distributes over XOR. -/
theorem gfmul_xor_right (a b c : Byte) : gfmul a (b ^^^ c) = gfmul a b ^^^ gfmul a c := by
  by_cases ha : a = 0#8
  · simp [ha]
  obtain ⟨n, rfl⟩ := exists_alphaPow ha
  induction n with
  | zero => simp [alphaPow_zero]
  | succ n ih => simp only [alphaPow_succ, gfmul_timesAlpha, ih (alphaPow_ne_zero n), timesAlpha_xor]

theorem gfmul_xor_left (a b c : Byte) : gfmul (a ^^^ b) c = gfmul a c ^^^ gfmul b c := by
  rw [gfmul_comm, gfmul_xor_right, gfmul_comm c a, gfmul_comm c b]

theorem gfmul_inverse {a : Byte} (ha : a ≠ 0#8) : gfmul a (expAt ((255 - (logAt a).toNat) % 255)) = 1#8 := by
  obtain ⟨n, rfl⟩ := exists_alphaPow ha
  have hsum : (n + (255 - n % 255)) % 255 = 0 := by omega
  calc gfmul (alphaPow n) (expAt ((255 - (logAt (alphaPow n)).toNat) % 255))
      = gfmul (alphaPow n) (alphaPow (255 - n % 255)) := by rw [logAt_alphaPow]; rfl
    _ = alphaPow (n + (255 - n % 255)) := gfmul_alphaPow _ _
    _ = 1#8 := by rw [alphaPow, hsum]; rfl

/-- The inverse is unique, as in every commutative monoid. -/
theorem gfmul_eq_one_iff {a : Byte} (ha : a ≠ 0#8) (b : Byte) :
    gfmul a b = 1#8 ↔ b = expAt ((255 - (logAt a).toNat) % 255) := by
  have hinv := gfmul_inverse ha
  constructor
  · intro h
    calc b = gfmul b (gfmul a (expAt ((255 - (logAt a).toNat) % 255))) := by rw [hinv, gfmul_one_right]
      _ = expAt ((255 - (logAt a).toNat) % 255) := by rw [← gfmul_assoc, gfmul_comm b a, h, gfmul_one_left]
  · rintro rfl
    exact hinv

/-- Settles O18: the laws above. -/
theorem gfmulObeysTheFieldLaws : Obligations.GfmulObeysTheFieldLaws :=
  ⟨gfmul_comm, gfmul_assoc, gfmul_xor_right, fun a => ⟨gfmul_one_right a, gfmul_zero_right a, gfmul_zero_left a⟩,
    fun _ ha b => gfmul_eq_one_iff ha b⟩

/-- Settles O19: the table's round trip and four of the laws. -/
theorem sourceTablePropertiesHold : Obligations.SourceTablePropertiesHold :=
  ⟨fun _ hx => expAt_logAt hx, gfmul_comm, fun x => ⟨gfmul_zero_right x, gfmul_zero_left x, gfmul_one_right x⟩⟩

/-! The remainder of GF(2) polynomials (R160): each round XORs in a shifted divisor and lowers `bitlen`. -/

theorem bitlen_le_iff (v n : Nat) : bitlen v ≤ n ↔ v < 2 ^ n := by
  by_cases hv : v = 0
  · simp [bitlen, hv]
  · rw [bitlen, if_neg hv, Nat.succ_le_iff, Nat.log2_lt hv]

theorem lt_two_pow_bitlen (v : Nat) : v < 2 ^ bitlen v := (bitlen_le_iff v _).mp le_rfl

theorem bitlen_pos {v : Nat} (hv : v ≠ 0) : 0 < bitlen v := by simp [bitlen, hv]

theorem testBit_bitlen_sub_one {v : Nat} (hv : v ≠ 0) : v.testBit (bitlen v - 1) = true := by
  rw [bitlen, if_neg hv, Nat.add_sub_cancel, Nat.testBit_log2 hv]

/-- The round of R160 cancels the highest bit. -/
theorem xor_shifted_divisor_lt {g r : Nat} (hg : g ≠ 0) (h : bitlen g - 1 < bitlen r) :
    r ^^^ (g <<< (bitlen r - 1 - (bitlen g - 1))) < 2 ^ (bitlen r - 1) := by
  have hr : r ≠ 0 := by
    rintro rfl
    simp [bitlen] at h
  have hgpos := bitlen_pos hg
  refine Nat.lt_pow_two_of_testBit _ fun i hi => ?_
  rw [Nat.testBit_xor, Nat.testBit_shiftLeft]
  obtain rfl | htop : i = bitlen r - 1 ∨ bitlen r ≤ i := by omega
  · have hpos : bitlen r - 1 - (bitlen r - 1 - (bitlen g - 1)) = bitlen g - 1 := by omega
    rw [hpos, testBit_bitlen_sub_one hr, testBit_bitlen_sub_one hg]
    simp
  · have hrbit : r.testBit i = false := Nat.testBit_lt_two_pow ((bitlen_le_iff r i).mp htop)
    have hgbit : g.testBit (i - (bitlen r - 1 - (bitlen g - 1))) = false :=
      Nat.testBit_lt_two_pow ((bitlen_le_iff g _).mp (by omega))
    simp [hrbit, hgbit]

theorem bchLoop_lt {g : Nat} (hg : g ≠ 0) {fuel r : Nat} (h : bitlen r ≤ fuel) :
    bchLoop g fuel r < 2 ^ (bitlen g - 1) := by
  induction fuel generalizing r with
  | zero => exact (bitlen_le_iff r _).mp (h.trans (Nat.zero_le _))
  | succ fuel ih =>
    rw [bchLoop]
    split
    · next hlong =>
      have hround := (bitlen_le_iff _ _).mpr (xor_shifted_divisor_lt hg hlong)
      exact ih (by omega)
    · next hshort => exact (bitlen_le_iff r _).mp (by omega)

theorem bchrem_lt {g : Nat} (hg : g ≠ 0) (v : Nat) : bchrem v g < 2 ^ (bitlen g - 1) := bchLoop_lt hg le_rfl

/-- What an XOR of a shifted divisor does not change, the remainder has from the dividend. -/
theorem bchLoop_keeps {α : Type} {f : Nat → α} {g : Nat} (hf : ∀ r k, f (r ^^^ g <<< k) = f r) (fuel r : Nat) :
    f (bchLoop g fuel r) = f r := by
  induction fuel generalizing r with
  | zero => rfl
  | succ fuel ih =>
    rw [bchLoop]
    split
    · rw [ih, hf]
    · rfl

/-! The value at alpha of a GF(2) polynomial (R11): it turns the carry-less product into gfmul, and GF_POLY into 0. -/

/-- The value at alpha of the GF(2) polynomial `v`, by Horner's rule on its bits. -/
def valueAtAlpha (v : Nat) : Byte :=
  Nat.binaryRec 0#8 (fun b _ x => timesAlpha x ^^^ (BitVec.ofBool b).setWidth 8) v

@[simp] theorem valueAtAlpha_zero : valueAtAlpha 0 = 0#8 := Nat.binaryRec_zero _ _

theorem valueAtAlpha_bit (b : Bool) (v : Nat) :
    valueAtAlpha (Nat.bit b v) = timesAlpha (valueAtAlpha v) ^^^ (BitVec.ofBool b).setWidth 8 :=
  Nat.binaryRec_eq b v (.inl (by decide))

theorem valueAtAlpha_double (v : Nat) : valueAtAlpha (2 * v) = timesAlpha (valueAtAlpha v) :=
  (valueAtAlpha_bit false v).trans BitVec.xor_zero

theorem valueAtAlpha_xor (v w : Nat) : valueAtAlpha (v ^^^ w) = valueAtAlpha v ^^^ valueAtAlpha w := by
  induction v using Nat.binaryRec generalizing w with
  | zero => simp
  | bit b v ih =>
    cases w using Nat.bitCasesOn with
    | bit c w =>
      have hlow : (BitVec.ofBool (b != c)).setWidth 8 = (BitVec.ofBool b).setWidth 8 ^^^ (BitVec.ofBool c).setWidth 8 := by
        cases b <;> cases c <;> rfl
      rw [Nat.xor_bit, valueAtAlpha_bit, valueAtAlpha_bit, valueAtAlpha_bit, ih, timesAlpha_xor, hlow]
      ac_rfl

theorem timesAlpha_xor_bit : ∀ b : Bool, ∀ v < 128,
    timesAlpha (BitVec.ofNat 8 v) ^^^ (BitVec.ofBool b).setWidth 8 = BitVec.ofNat 8 (Nat.bit b v) := by decide +kernel

/-- Below x^8 there is nothing to reduce: a codeword is the value of its own polynomial. -/
theorem valueAtAlpha_of_lt {v : Nat} (h : v < 256) : valueAtAlpha v = BitVec.ofNat 8 v := by
  induction v using Nat.binaryRec with
  | zero => rfl
  | bit b v ih =>
    have hv : v < 128 := by
      rw [Nat.bit_val] at h
      omega
    rw [valueAtAlpha_bit, ih (by omega), timesAlpha_xor_bit b v hv]

theorem valueAtAlpha_toNat (a : Byte) : valueAtAlpha a.toNat = a := by
  rw [valueAtAlpha_of_lt a.isLt, BitVec.ofNat_toNat, BitVec.setWidth_eq]

/-- Alpha is a root of GF_POLY (R7): x^8 is one doubling of x^7. -/
theorem valueAtAlpha_gfPoly : valueAtAlpha 0x11D = 0#8 := by
  have hsplit : 0x11D = 2 * 0x80 ^^^ 0x1D := by decide
  rw [hsplit, valueAtAlpha_xor, valueAtAlpha_double, valueAtAlpha_of_lt (by decide), valueAtAlpha_of_lt (by decide)]
  decide

theorem valueAtAlpha_shiftLeft (v n : Nat) : valueAtAlpha (v <<< n) = gfmul (valueAtAlpha (1 <<< n)) (valueAtAlpha v) := by
  induction n with
  | zero => rw [Nat.shiftLeft_zero, Nat.shiftLeft_zero, valueAtAlpha_of_lt (by decide : 1 < 256), gfmul_one_left]
  | succ n ih => rw [Nat.shiftLeft_succ, Nat.shiftLeft_succ, valueAtAlpha_double, valueAtAlpha_double, ih, gfmul_timesAlpha]

theorem valueAtAlpha_xor_shifted_gfPoly (v n : Nat) : valueAtAlpha (v ^^^ 0x11D <<< n) = valueAtAlpha v := by
  rw [valueAtAlpha_xor, valueAtAlpha_shiftLeft, valueAtAlpha_gfPoly, gfmul_zero_right, BitVec.xor_zero]

/-- Reducing by GF_POLY is evaluating at alpha. -/
theorem bchrem_gfPoly (v : Nat) : bchrem v 0x11D = (valueAtAlpha v).toNat := by
  have hlt : bchrem v 0x11D < 256 := bchrem_lt (by decide) v
  have hkeeps : valueAtAlpha (bchrem v 0x11D) = valueAtAlpha v := bchLoop_keeps valueAtAlpha_xor_shifted_gfPoly _ _
  rw [← hkeeps, valueAtAlpha_of_lt hlt, BitVec.toNat_ofNat, Nat.mod_eq_of_lt hlt]

theorem mod_two_pow_succ_eq_xor (a n : Nat) :
    a % 2 ^ (n + 1) = a % 2 ^ n ^^^ if a.testBit n then 1 <<< n else 0 := by
  refine Nat.eq_of_testBit_eq fun i => ?_
  rw [Nat.testBit_xor, Nat.testBit_mod_two_pow, Nat.testBit_mod_two_pow, apply_ite (Nat.testBit · i), Nat.one_shiftLeft,
    Nat.testBit_two_pow, Nat.zero_testBit]
  obtain hlt | rfl | hgt := lt_trichotomy i n
  · simp [hlt, hlt.ne', Nat.lt_succ_of_lt hlt]
  · simp
  · simp [hgt.ne, hgt.not_gt, hgt]

theorem valueAtAlpha_clmulBits (n a b : Nat) :
    valueAtAlpha (clmulBits n a b) = gfmul (valueAtAlpha (a % 2 ^ n)) (valueAtAlpha b) := by
  induction n with
  | zero => simp [clmulBits, Nat.mod_one]
  | succ n ih =>
    rw [clmulBits, mod_two_pow_succ_eq_xor, valueAtAlpha_xor, valueAtAlpha_xor, gfmul_xor_left, ih]
    split
    · rw [valueAtAlpha_shiftLeft b n]
    · rw [valueAtAlpha_zero, gfmul_zero_left]

theorem valueAtAlpha_clmul (a b : Nat) : valueAtAlpha (clmul a b) = gfmul (valueAtAlpha a) (valueAtAlpha b) := by
  rw [clmul, valueAtAlpha_clmulBits, Nat.mod_eq_of_lt (lt_two_pow_bitlen a)]

/-- Settles O17: both sides are the value at alpha of the carry-less product. -/
theorem gfmulIsTheReducedCarrylessProduct : Obligations.GfmulIsTheReducedCarrylessProduct := by
  refine fun a b => ⟨fun h => if_pos h, gfmul_nonzero, ?_⟩
  rw [bchrem_gfPoly, valueAtAlpha_clmul, valueAtAlpha_toNat, valueAtAlpha_toNat]

/-! The commands (R123 to R126). -/

/-- A command in flight that ends OK writes its result state and STATUS, and nothing else (R103). -/
theorem InFlight.completeWith_ok {s : State} (h : InFlight s) (r : Results) :
    s.completeWith (.ok r) = .next { s with status := s.status.okAfter, results := r } := by
  rw [← h.complete_eq_okAfter]
  rfl

theorem exec_gflog_zero {s : State} (h : s.operands.opa = 0#8) : exec .gflog s = s.completeWith (.error .logZero) :=
  congrArg s.completeWith (if_pos h)

theorem exec_gflog_nonzero {s : State} (h : s.operands.opa ≠ 0#8) :
    exec .gflog s = s.completeWith (.ok (s.results.writeResult (zext18 (logAt s.operands.opa)) 8#5)) :=
  congrArg s.completeWith (if_neg h)

/-- Settles O20: the completion of GFMUL, and the laws of the product. -/
theorem gfmulWritesTheProduct : Obligations.GfmulWritesTheProduct :=
  ⟨fun _ hf => hf.completeWith_ok _, rfl,
    fun a => ⟨gfmul_zero_left a, gfmul_zero_right a, gfmul_one_left a, gfmul_one_right a⟩, gfmul_comm,
    fun _ _ => gfmul_nonzero, rfl, rfl⟩

theorem getLsbD_zext18 (b : Byte) (k : Nat) : (zext18 b).getLsbD k = b.getLsbD k := by
  rw [zext18, BitVec.getLsbD_setWidth]
  obtain hlt | hge : k < 18 ∨ 8 ≤ k := by omega
  · simp [hlt]
  · simp [BitVec.getLsbD_of_ge b k hge]

/-- Settles O21: RESULT is the zero-extended AND, whose bits are the products of the operands' bits. -/
theorem gf2mulWritesTheBitwiseAnd : Obligations.Gf2mulWritesTheBitwiseAnd := by
  refine ⟨fun s hf => ⟨zext18 (s.operands.opa &&& s.operands.opb), hf.completeWith_ok _, fun k => ?_, fun heq => ?_,
    fun hzero => ?_⟩, rfl, rfl⟩
  · rw [getLsbD_zext18, BitVec.getLsbD_and]
  · rw [← heq, BitVec.and_self, zext18]
  · obtain h | h := hzero
    · rw [h, BitVec.zero_and]
      rfl
    · rw [h, BitVec.and_zero]
      rfl

/-- Settles O22: on 0 the check raises LOG_ZERO, else LOG is written. -/
theorem gflogWritesTheLogarithm : Obligations.GflogWritesTheLogarithm := by
  refine ⟨fun s hf hne => ?_, fun s _ hzero => ?_, fun v hv => Nat.le_of_lt_succ (logAt_lt hv), rfl, logAt_one, rfl⟩
  · rw [exec_gflog_nonzero hne, hf.completeWith_ok]
    rfl
  · rw [exec_gflog_zero hzero]
    rfl

/-- Settles O23: the completion of GFEXP; no entry of EXP is 0. -/
theorem gfexpWritesThePower : Obligations.GfexpWritesThePower :=
  ⟨fun _ hf => hf.completeWith_ok _, fun e => expAt_ne_zero e.toNat e.isLt, rfl, rfl, rfl, rfl⟩

end Sys2Proof.Machine
end

section
/-! Proofs of the statements of 42_reed_solomon.md: the generator polynomial, the remainder of a block, and the commands
RSGEN and RSREM. -/

namespace Sys2Proof.Machine

/-! The XOR of polynomials (R11): a commutative sum among polynomials of one length, in which each
is its own inverse. -/

theorem xorInto_right_comm (r h k : List Byte) : xorInto (xorInto r h) k = xorInto (xorInto r k) h := by
  induction r generalizing h k with
  | nil => simp
  | cons x r ih =>
    cases h with
    | nil => simp
    | cons y h =>
      cases k with
      | nil => simp
      | cons z k =>
        have hxor : x ^^^ y ^^^ z = x ^^^ z ^^^ y := by ac_rfl
        simp only [xorInto_cons, ih, hxor]

theorem xorInto_cancel (r h : List Byte) : xorInto (xorInto r h) h = r := by
  induction r, h using xorInto.induct with
  | case1 x r y h ih => simp [ih]
  | case2 r => simp
  | case3 y h => simp

/-- The middle polynomial has to reach as far as the sum does. -/
theorem xorInto_assoc {r h k : List Byte} (hl : min r.length k.length ≤ h.length) :
    xorInto r (xorInto h k) = xorInto (xorInto r h) k := by
  induction r generalizing h k with
  | nil => simp
  | cons x r ih =>
    cases k with
    | nil => simp
    | cons z k =>
      cases h with
      | nil => simp at hl
      | cons y h => simp [ih (by simpa using hl), BitVec.xor_assoc]

theorem xorInto_eq_zipWith {p q : List Byte} (h : p.length = q.length) : xorInto p q = List.zipWith (· ^^^ ·) p q := by
  induction p, q using xorInto.induct with
  | case1 x p y q ih => simp [ih (Nat.succ.inj h)]
  | case2 p => simp [List.length_eq_zero_iff.mp h]
  | case3 y q => simp

theorem xorInto_comm {p q : List Byte} (h : p.length = q.length) : xorInto p q = xorInto q p := by
  rw [xorInto_eq_zipWith h, xorInto_eq_zipWith h.symm, List.zipWith_comm_of_comm BitVec.xor_comm]

theorem zeros_xorInto {p : List Byte} {n : Nat} (h : p.length = n) : xorInto (List.replicate n 0#8) p = p := by
  rw [xorInto_comm (by simp [h]), xorInto_zeros]

theorem xorInto_append {p h : List Byte} (q k : List Byte) (hl : p.length = h.length) :
    xorInto (p ++ q) (h ++ k) = xorInto p h ++ xorInto q k := by
  induction p, h using xorInto.induct with
  | case1 x p y h ih => simp [ih (Nat.succ.inj hl)]
  | case2 p => simp [List.length_eq_zero_iff.mp hl]
  | case3 y h => simp at hl

theorem xorInto_append_zeros (r h : List Byte) (n : Nat) : xorInto r (h ++ List.replicate n 0#8) = xorInto r h := by
  induction r, h using xorInto.induct with
  | case1 x r y h ih => simp [ih]
  | case2 r => rw [List.nil_append, xorInto_zeros, xorInto_nil_right]
  | case3 y h => simp

/-! The product of polynomials (R11). -/

theorem scale_xor (f f' : Byte) (g : List Byte) : scale (f ^^^ f') g = xorInto (scale f g) (scale f' g) := by
  induction g with
  | nil => rfl
  | cons c g ih => simp [ih, gfmul_xor_right]

@[simp] theorem polyMul_nil (q : List Byte) : polyMul [] q = [] := rfl

@[simp] theorem polyMul_cons (c : Byte) (p q : List Byte) :
    polyMul (c :: p) q = xorInto (scale c q ++ List.replicate p.length 0#8) (0#8 :: polyMul p q) := rfl

theorem polyMul_singleton (c : Byte) (q : List Byte) : polyMul [c] q = scale c q := by
  simpa using xorInto_zeros (scale c q) 1

theorem polyMul_length_lt (p : List Byte) {q : List Byte} (hq : q ≠ []) : (polyMul p q).length < p.length + q.length := by
  cases p with
  | nil => simpa using List.length_pos_iff.mpr hq
  | cons c p => simp; omega

/-! The value of a polynomial (R11), by Horner's rule. -/

/-- One round of Horner's rule. -/
def hornerStep (x acc c : Byte) : Byte := gfmul acc x ^^^ c

theorem polyEval_eq_foldl (p : List Byte) (x : Byte) : polyEval p x = p.foldl (hornerStep x) 0#8 := rfl

@[simp] theorem polyEval_zero_cons (p : List Byte) (x : Byte) : polyEval (0#8 :: p) x = polyEval p x := by
  simp [polyEval]

@[simp] theorem polyEval_concat (p : List Byte) (c x : Byte) : polyEval (p ++ [c]) x = gfmul (polyEval p x) x ^^^ c := by
  simp [polyEval]

theorem foldl_hornerStep_xor {p q : List Byte} (h : p.length = q.length) (x a b : Byte) :
    (xorInto p q).foldl (hornerStep x) (a ^^^ b) = p.foldl (hornerStep x) a ^^^ q.foldl (hornerStep x) b := by
  induction p, q using xorInto.induct generalizing a b with
  | case1 c p d q ih =>
    have hstep : hornerStep x (a ^^^ b) (c ^^^ d) = hornerStep x a c ^^^ hornerStep x b d := by
      simp only [hornerStep, gfmul_xor_left]
      ac_rfl
    simp only [xorInto_cons, List.foldl_cons, hstep, ih (Nat.succ.inj h)]
  | case2 p => simp [List.length_eq_zero_iff.mp h]
  | case3 d q => simp at h

theorem polyEval_xorInto {p q : List Byte} (h : p.length = q.length) (x : Byte) :
    polyEval (xorInto p q) x = polyEval p x ^^^ polyEval q x :=
  foldl_hornerStep_xor h x 0#8 0#8

theorem foldl_hornerStep_scale (f x a : Byte) (p : List Byte) :
    (scale f p).foldl (hornerStep x) (gfmul a f) = gfmul (p.foldl (hornerStep x) a) f := by
  induction p generalizing a with
  | nil => rfl
  | cons c p ih =>
    have hstep : hornerStep x (gfmul a f) (gfmul c f) = gfmul (hornerStep x a c) f := by
      simp only [hornerStep, gfmul_xor_left, gfmul_assoc, gfmul_comm f x]
    rw [scale_cons, List.foldl_cons, hstep, ih, List.foldl_cons]

theorem polyEval_scale (f x : Byte) (p : List Byte) : polyEval (scale f p) x = gfmul (polyEval p x) f := by
  rw [polyEval_eq_foldl, ← gfmul_zero_left f, foldl_hornerStep_scale, polyEval_eq_foldl]

theorem polyEval_append_zeros {p : List Byte} {x : Byte} (h : polyEval p x = 0#8) (n : Nat) :
    polyEval (p ++ List.replicate n 0#8) x = 0#8 := by
  induction n with
  | zero => simpa using h
  | succ n ih => simp [List.replicate_succ', ← List.append_assoc, ih]

/-- A root of a factor is a root of the product. -/
theorem polyEval_polyMul_of_root {g : List Byte} {x : Byte} (hg : g ≠ []) (hx : polyEval g x = 0#8) (q : List Byte) :
    polyEval (polyMul q g) x = 0#8 := by
  have hscaled (c : Byte) : polyEval (scale c g) x = 0#8 := by rw [polyEval_scale, hx, gfmul_zero_left]
  induction q with
  | nil => rfl
  | cons c q ih =>
    cases q with
    | nil => rw [polyMul_singleton, hscaled]
    | cons d q =>
      have hpos : 0 < g.length := List.length_pos_iff.mpr hg
      rw [polyMul_cons, polyEval_xorInto (by simp; omega), polyEval_append_zeros (hscaled c), polyEval_zero_cons, ih,
        BitVec.xor_self]

/-! The generator polynomial (R140, R142): each round multiplies by one more x + alpha^i. -/

theorem polyEval_mulRoot (g : List Byte) (a x : Byte) : polyEval (mulRoot g a) x = gfmul (polyEval g x) (x ^^^ a) := by
  rw [mulRoot, polyEval_xorInto (by simp), polyEval_concat, polyEval_zero_cons, polyEval_scale, gfmul_xor_right,
    BitVec.xor_zero]

theorem mulRoot_cons (c a : Byte) (p : List Byte) : mulRoot (c :: p) a = c :: xorInto (p ++ [0#8]) (scale a (c :: p)) := by
  simp [mulRoot]

theorem mulRoot_concat (p : List Byte) (c a : Byte) :
    mulRoot (p ++ [c]) a = xorInto (p ++ [c]) (0#8 :: scale a p) ++ [gfmul c a] := by
  have hscale : 0#8 :: scale a (p ++ [c]) = (0#8 :: scale a p) ++ [gfmul c a] := by simp [scale]
  rw [mulRoot, hscale, xorInto_append _ _ (by simp)]
  simp

/-- A round of R140 is the product by x + a. -/
theorem polyMul_root {p : List Byte} (hp : p ≠ []) (a : Byte) : polyMul p [1#8, a] = mulRoot p a := by
  induction p with
  | nil => exact absurd rfl hp
  | cons c p ih =>
    cases p with
    | nil => simp [mulRoot, gfmul_comm a c]
    | cons d p =>
      rw [polyMul_cons, ih (by simp), mulRoot_cons, mulRoot_cons]
      simp [gfmul_comm a c, BitVec.xor_comm, zeros_xorInto]

theorem genPoly_one : genPoly 1 = [1#8, expAt 0] := rfl

theorem genPoly_succ {e : Nat} (h : 1 ≤ e) : genPoly (e + 1) = mulRoot (genPoly e) (expAt e) := by
  obtain ⟨k, rfl⟩ := Nat.exists_eq_add_of_le' h
  rfl

theorem genPoly_ne_nil {e : Nat} (h : 1 ≤ e) : genPoly e ≠ [] :=
  List.ne_nil_of_length_eq_add_one (genPoly_length h)

theorem genPoly_monic {e : Nat} (h : 1 ≤ e) : (genPoly e).head? = some 1#8 := by
  induction e, h using Nat.le_induction with
  | base => rfl
  | succ e h ih =>
    obtain ⟨t, ht⟩ := List.head?_eq_some_iff.mp ih
    rw [genPoly_succ h, ht, mulRoot_cons, List.head?_cons]

theorem genPoly_root {e : Nat} (h : 1 ≤ e) : ∀ i < e, polyEval (genPoly e) (expAt i) = 0#8 := by
  induction e, h using Nat.le_induction with
  | base => decide
  | succ e h ih =>
    intro i hi
    rw [genPoly_succ h, polyEval_mulRoot]
    obtain hlt | rfl := Nat.lt_succ_iff_lt_or_eq.mp hi
    · rw [ih i hlt, gfmul_zero_left]
    · rw [BitVec.xor_self, gfmul_zero_right]

/-- The constant term is the product of all alpha^i, whose exponents add up to the triangle number. -/
theorem genPoly_constant_term {e : Nat} (h : 1 ≤ e) (h255 : e ≤ 255) :
    (genPoly e).getLast? = some (alphaPow (e * (e - 1) / 2)) := by
  induction e, h using Nat.le_induction with
  | base => rfl
  | succ e h ih =>
    obtain ⟨p, hp⟩ := List.getLast?_eq_some_iff.mp (ih (by omega))
    have halpha : expAt e = alphaPow e := by rw [alphaPow, Nat.mod_eq_of_lt (by omega)]
    rw [genPoly_succ h, hp, mulRoot_concat, List.getLast?_concat, halpha, gfmul_alphaPow, Nat.triangle_succ]

theorem zero_notMem_genPoly : ∀ e < 31, 0#8 ∉ genPoly e := by decide +kernel

/-- Settles O25: each clause but the last, which is a finite check, is kept by the rounds of R140. -/
theorem generatorHasTheConsecutiveRoots : Obligations.GeneratorHasTheConsecutiveRoots := by
  refine ⟨genPoly_one, fun e h1 _ => ?_, fun e h1 h255 => ?_, fun e _ h30 c hc => ?_⟩
  · rw [genPoly_succ h1, polyMul_root (genPoly_ne_nil h1)]
  · exact ⟨genPoly_length h1, genPoly_monic h1, genPoly_root h1, genPoly_constant_term h1 h255⟩
  · exact ne_of_mem_of_not_mem hc (zero_notMem_genPoly e (by omega))

/-! The rounds of the remainder (R143). -/

/-- A round XORs in the scaled divisor past its leading coefficient; that one only meets r[i], which is not read again. -/
theorem remRound_cons (g r : List Byte) (f : Byte) : remRound g (f :: r) = xorInto r (scale f g.tail) := by
  rw [remRound_eq_tail]
  cases g <;> simp

@[simp] theorem remRound_zero_cons (g r : List Byte) : remRound g (0#8 :: r) = r := by
  rw [remRound_cons, scale_zero, xorInto_zeros]

theorem remRounds_zeros_append (g r : List Byte) (n : Nat) : remRounds g n (List.replicate n 0#8 ++ r) = r := by
  induction n with
  | zero => rfl
  | succ n ih => rw [List.replicate_succ, List.cons_append, remRounds, remRound_zero_cons, ih]

theorem rsrem_zeros (n : Nat) (g : List Byte) : rsrem (List.replicate n 0#8) g = List.replicate (g.length - 1) 0#8 := by
  rw [rsrem, List.length_replicate, remRounds_zeros_append]

/-- A leading zero codeword adds nothing (R146). -/
theorem rsrem_zero_cons (d g : List Byte) : rsrem (0#8 :: d) g = rsrem d g := by
  rw [rsrem, List.length_cons, List.cons_append, remRounds, remRound_zero_cons, rsrem]

/-- Settles O26: a round drops one coefficient and maps zeros to zeros. -/
theorem remainderHasEccCodewords : Obligations.RemainderHasEccCodewords :=
  fun g _ => ⟨fun d => rsrem_length d g, fun n => rsrem_zeros n g⟩

/-! Linearity (R147). -/

theorem remRound_xor (g : List Byte) {r r' : List Byte} (h : r.length = r'.length) :
    remRound g (xorInto r r') = xorInto (remRound g r) (remRound g r') := by
  cases r with
  | nil => simp [remRound]
  | cons f r =>
    cases r' with
    | nil => simp at h
    | cons f' r' =>
      have hlen : r.length = r'.length := Nat.succ.inj h
      simp only [xorInto_cons, remRound_cons]
      calc xorInto (xorInto r r') (scale (f ^^^ f') g.tail)
        _ = xorInto (xorInto (xorInto r r') (scale f g.tail)) (scale f' g.tail) := by
          rw [scale_xor, xorInto_assoc (by simp)]
        _ = xorInto (xorInto (xorInto r (scale f g.tail)) r') (scale f' g.tail) := by rw [xorInto_right_comm r]
        _ = xorInto (xorInto r (scale f g.tail)) (xorInto r' (scale f' g.tail)) :=
          (xorInto_assoc (by simp [hlen])).symm

theorem remRounds_xor (g : List Byte) (n : Nat) {r r' : List Byte} (h : r.length = r'.length) :
    remRounds g n (xorInto r r') = xorInto (remRounds g n r) (remRounds g n r') := by
  induction n generalizing r r' with
  | zero => rfl
  | succ n ih => rw [remRounds, remRound_xor g h, ih (by simp [h]), remRounds, remRounds]

/-- Settles O29: the padded XOR is the XOR of the padded blocks, and every round is linear. -/
theorem remainderIsLinear : Obligations.RemainderIsLinear := by
  intro d₁ d₂ g h _
  rw [← xorInto_eq_zipWith h, ← xorInto_eq_zipWith (by simp [rsrem_length])]
  have hpad : xorInto d₁ d₂ ++ List.replicate (g.length - 1) 0#8 =
      xorInto (d₁ ++ List.replicate (g.length - 1) 0#8) (d₂ ++ List.replicate (g.length - 1) 0#8) := by
    rw [xorInto_append _ _ h, xorInto_zeros]
  rw [rsrem, rsrem, rsrem, hpad, xorInto_length, remRounds_xor g _ (by simp [h]), h]

/-! The block with its remainder (R147). -/

/-- An equation of sums solved for `r`, as long as the terms on the right reach far enough. -/
theorem eq_xorInto_of_xorInto_eq {r s z p : List Byte} {n : Nat} (hp : p.length ≤ s.length + n)
    (h : xorInto r s = xorInto z p) : r = xorInto z (xorInto (s ++ List.replicate n 0#8) p) :=
  calc r
    _ = xorInto (xorInto z p) s := by rw [← h, xorInto_cancel]
    _ = xorInto (xorInto z p) (s ++ List.replicate n 0#8) := (xorInto_append_zeros _ _ _).symm
    _ = xorInto (xorInto z (s ++ List.replicate n 0#8)) p := xorInto_right_comm _ _ _
    _ = xorInto z (xorInto (s ++ List.replicate n 0#8) p) := (xorInto_assoc (by simp [hp])).symm

/-- Division with remainder: the rounds XOR in a multiple of a monic divisor and leave the rest at the end. The quotient's
coefficients are the leading coefficients that the rounds meet. -/
theorem exists_quotient (t : List Byte) {n : Nat} {r : List Byte} (h : r.length = n + t.length) :
    ∃ q : List Byte, q.length = n ∧
      r = xorInto (List.replicate n 0#8 ++ remRounds (1#8 :: t) n r) (polyMul q (1#8 :: t)) := by
  induction n generalizing r with
  | zero => exact ⟨[], rfl, by simp [remRounds]⟩
  | succ n ih =>
    have hr : r.length = n + t.length + 1 := by omega
    obtain ⟨f, r, rfl⟩ := List.exists_cons_of_length_eq_add_one hr
    obtain ⟨q, hq, hdiv⟩ := ih (r := remRound (1#8 :: t) (f :: r)) (by simpa using hr)
    have hprod : (polyMul q (1#8 :: t)).length < q.length + (t.length + 1) := polyMul_length_lt q (List.cons_ne_nil _ _)
    have hround : remRound (1#8 :: t) (f :: r) = xorInto r (scale f t) := remRound_cons _ _ _
    rw [hround] at hdiv
    refine ⟨f :: q, by rw [List.length_cons, hq], ?_⟩
    simpa [remRounds, hround, hq, List.replicate_succ] using eq_xorInto_of_xorInto_eq (n := n) (by simp; omega) hdiv

/-- A block followed by its remainder is a multiple of a monic divisor. -/
theorem codeword_eq_product {g d : List Byte} (hg : g.head? = some 1#8) (hd : d ≠ []) :
    ∃ q : List Byte, q.length = d.length ∧ polyMul q g = d ++ rsrem d g := by
  obtain ⟨t, rfl⟩ := List.head?_eq_some_iff.mp hg
  obtain ⟨q, hq, hdiv⟩ := exists_quotient t (n := d.length) (r := d ++ List.replicate t.length 0#8) (by simp)
  refine ⟨q, hq, ?_⟩
  have hrem : remRounds (1#8 :: t) d.length (d ++ List.replicate t.length 0#8) = rsrem d (1#8 :: t) := rfl
  have hlen : (List.replicate d.length 0#8 ++ rsrem d (1#8 :: t)).length = (polyMul q (1#8 :: t)).length := by
    cases q with
    | nil => exact absurd (List.length_eq_zero_iff.mp hq.symm) hd
    | cons c q => simp [rsrem_length, ← hq]; omega
  rw [hrem, xorInto_comm hlen] at hdiv
  calc polyMul q (1#8 :: t)
    _ = xorInto (d ++ List.replicate t.length 0#8) (List.replicate d.length 0#8 ++ rsrem d (1#8 :: t)) := by
      rw [hdiv, xorInto_cancel]
    _ = d ++ rsrem d (1#8 :: t) := by
      rw [xorInto_append _ _ (by simp), xorInto_zeros, zeros_xorInto (by simp [rsrem_length])]

/-- Settles O28: the product vanishes where the generator does. -/
theorem blockWithRemainderIsACodeword : Obligations.BlockWithRemainderIsACodeword := by
  intro e d h1 _ hd
  obtain ⟨q, hq, hprod⟩ := codeword_eq_product (genPoly_monic h1) hd
  refine ⟨⟨q, hq, hprod⟩, fun i hi => ?_⟩
  rw [← hprod]
  exact polyEval_polyMul_of_root (genPoly_ne_nil h1) (genPoly_root h1 i hi) q

/-! The source's loop (R144, R145). -/

theorem stripDivide_zero_cons (g r : List Byte) (fuel : Nat) :
    stripDivide g (fuel + 1) (0#8 :: r) = stripDivide g (fuel + 1) r := rfl

theorem stripDivide_short {g r : List Byte} (h : r.length < g.length) (fuel : Nat) :
    stripDivide g (fuel + 1) r = r.dropWhile (· == 0#8) := by
  induction r with
  | nil => rfl
  | cons f r ih =>
    rw [List.length_cons] at h
    by_cases hf : f = 0#8
    · rw [hf, stripDivide_zero_cons, ih (by omega)]
      rfl
    · simp [stripDivide, hf, h]

/-- With a nonzero leading coefficient the source's loop does a round of R143 on a rest that is long enough. -/
theorem stripDivide_cons {f : Byte} {t r : List Byte} (hf : f ≠ 0#8) (h : t.length ≤ r.length) (fuel : Nat) :
    stripDivide (1#8 :: t) (fuel + 1) (f :: r) = stripDivide (1#8 :: t) fuel (0#8 :: remRound (1#8 :: t) (f :: r)) := by
  have hlong : ¬ r.length < t.length := by omega
  simp [stripDivide, hf, hlong, remRound_cons]

theorem leftpad_dropWhile_zero (r : List Byte) : (r.dropWhile (· == 0#8)).leftpad r.length 0#8 = r := by
  induction r with
  | nil => rfl
  | cons f r ih =>
    by_cases hf : f = 0#8
    · have hshort : (r.dropWhile (· == 0#8)).length ≤ r.length := List.length_dropWhile_le _ _
      simpa [hf, List.leftpad, Nat.succ_sub hshort, List.replicate_succ] using ih
    · simp [hf, List.leftpad]

/-- By induction on the rounds: the loop skips a round whose leading coefficient is 0 and spends fuel on any other. -/
theorem leftpad_stripDivide (t : List Byte) {n fuel : Nat} {r : List Byte} (h : r.length = n + t.length)
    (hfuel : n < fuel) :
    (stripDivide (1#8 :: t) fuel r).leftpad t.length 0#8 = remRounds (1#8 :: t) n r := by
  induction n generalizing r fuel with
  | zero =>
    obtain ⟨fuel, rfl⟩ := Nat.exists_eq_add_of_lt hfuel
    rw [Nat.zero_add] at h
    rw [stripDivide_short (by simp [h]), ← h, leftpad_dropWhile_zero]
    rfl
  | succ n ih =>
    obtain ⟨fuel, rfl⟩ := Nat.exists_eq_add_of_le' (Nat.one_le_of_lt hfuel)
    have hr : r.length = n + t.length + 1 := by omega
    obtain ⟨f, r, rfl⟩ := List.exists_cons_of_length_eq_add_one hr
    have hlen : r.length = n + t.length := Nat.succ.inj hr
    have hround : (remRound (1#8 :: t) (f :: r)).length = n + t.length := by simpa using hlen
    rw [remRounds]
    by_cases hf : f = 0#8
    · rw [hf, stripDivide_zero_cons, remRound_zero_cons, ih hlen (by omega)]
    · obtain ⟨fuel, rfl⟩ := Nat.exists_eq_add_of_le' (show 1 ≤ fuel by omega)
      rw [stripDivide_cons hf (by omega), stripDivide_zero_cons, ih hround (by omega)]

/-- Settles O27: the loop runs the rounds of R143, and its fuel is enough for all of them. -/
theorem remainderAgreesWithTheStrippingLoop : Obligations.RemainderAgreesWithTheStrippingLoop := by
  intro d g hg _
  obtain ⟨t, rfl⟩ := List.head?_eq_some_iff.mp hg
  exact (leftpad_stripDivide t (by simp) (by simp)).symm

/-! The commands (R141, R146). -/

/-- A command that ends with an error writes STATUS only (R184). -/
theorem completeWith_error (s : State) (c : ErrCode) :
    s.completeWith (.error c) = .next { s with status := s.status.errAfter c } := rfl

theorem exec_rsgen_ecc_range {s : State} (h : s.operands.ecc.toNat = 0 ∨ 30 < s.operands.ecc.toNat) :
    exec .rsgen s = s.completeWith (.error .eccRange) :=
  congrArg s.completeWith (if_pos ((eccOutOfRange_iff _).mpr h))

theorem exec_rsgen_ok {s : State} (h : ¬ (s.operands.ecc.toNat = 0 ∨ 30 < s.operands.ecc.toNat)) :
    exec .rsgen s = s.completeWith (.ok (s.results.writeGenerator (genPoly s.operands.ecc.toNat) s.operands.ecc)) :=
  congrArg s.completeWith (if_neg (mt (eccOutOfRange_iff _).mp h))

/-- Settles O24: the check splits all operands, and GBUF[0..ECC] is what is written. -/
theorem rsgenWritesTheGenerator : Obligations.RsgenWritesTheGenerator := by
  refine ⟨fun s hf h1 h30 => ?_, fun s _ hecc => ?_, rfl, rfl, genPoly_length (e := 30) (by decide), by decide +kernel⟩
  · refine ⟨writePrefix s.results.gbuf (genPoly s.operands.ecc.toNat), ?_, ?_, (writeGenerator_outputsOnly h1).2⟩
    · rw [exec_rsgen_ok (by omega), hf.completeWith_ok]
      rfl
    · have hlen : (genPoly s.operands.ecc.toNat).length = s.operands.ecc.toNat + 1 := genPoly_length h1
      rw [← hlen]
      exact writePrefix_take _ _ (by omega)
  · rw [exec_rsgen_ecc_range hecc, completeWith_error]

theorem exec_rsrem_ecc_range {s : State} (h : s.operands.ecc.toNat = 0 ∨ 30 < s.operands.ecc.toNat) :
    exec .rsrem s = s.completeWith (.error .eccRange) :=
  congrArg s.completeWith (if_pos ((eccOutOfRange_iff _).mpr h))

section
variable {s : State} (hecc : ¬ (s.operands.ecc.toNat = 0 ∨ 30 < s.operands.ecc.toNat))
include hecc

/-- ECC in range: the checks of RSREM that are left. -/
theorem exec_rsrem_of_ecc : exec .rsrem s = s.completeWith (
    if lenOutOfRange s.operands.len then .error .lenRange
    else if s.results.genDeg ≠ s.operands.ecc then .error .noGen
    else .ok (s.results.writeRemainder
      (rsrem (s.operands.block s.operands.len.toNat) (s.results.generator s.operands.ecc.toNat)) s.operands.ecc)) :=
  congrArg s.completeWith (if_neg (mt (eccOutOfRange_iff _).mp hecc))

theorem exec_rsrem_len_range (hlen : s.operands.len.toNat = 0 ∨ 256 < s.operands.len.toNat) :
    exec .rsrem s = s.completeWith (.error .lenRange) := by
  rw [exec_rsrem_of_ecc hecc, if_pos ((lenOutOfRange_iff _).mpr hlen)]

variable (hlen : ¬ (s.operands.len.toNat = 0 ∨ 256 < s.operands.len.toNat))
include hlen

theorem exec_rsrem_no_gen (hdeg : s.results.genDeg ≠ s.operands.ecc) :
    exec .rsrem s = s.completeWith (.error .noGen) := by
  rw [exec_rsrem_of_ecc hecc, if_neg (mt (lenOutOfRange_iff _).mp hlen), if_pos hdeg]

theorem exec_rsrem_ok (hdeg : s.results.genDeg = s.operands.ecc) :
    exec .rsrem s = s.completeWith (.ok (s.results.writeRemainder
      (rsrem (s.operands.block s.operands.len.toNat) (s.results.generator s.operands.ecc.toNat)) s.operands.ecc)) := by
  rw [exec_rsrem_of_ecc hecc, if_neg (mt (lenOutOfRange_iff _).mp hlen), if_neg (not_not.mpr hdeg)]

end

/-- Settles O30: the checks in their order split all operands, and RBUF[0..ECC-1] is what is written. -/
theorem rsremWritesTheRemainder : Obligations.RsremWritesTheRemainder := by
  refine ⟨fun s hf h1 h30 hl1 hl256 hdeg => ?_, fun s _ hecc => ?_, fun s _ h1 h30 hlen => ?_,
    fun s _ h1 h30 hl1 hl256 hdeg => ?_, rfl, fun d g _ _ => rsrem_zero_cons d g, fun n g _ => rsrem_zeros n g,
    by decide +kernel⟩
  · have hrem : (rsrem (s.operands.block s.operands.len.toNat) (s.results.generator s.operands.ecc.toNat)).length =
        s.operands.ecc.toNat := by
      rw [rsrem_length, generator_length _ h30, Nat.add_sub_cancel]
    refine ⟨writePrefix s.results.rbuf (rsrem (s.operands.block s.operands.len.toNat)
      (s.results.generator s.operands.ecc.toNat)), ?_, ?_, (writeRemainder_outputsOnly h30 _).2⟩
    · rw [exec_rsrem_ok (by omega) (by omega) hdeg, hf.completeWith_ok]
      rfl
    · exact remainder_of_writeRemainder s.results s.operands.ecc hrem h30
  · rw [exec_rsrem_ecc_range hecc, completeWith_error]
  · rw [exec_rsrem_len_range (by omega) hlen, completeWith_error]
  · rw [exec_rsrem_no_gen (by omega) (by omega) hdeg, completeWith_error]

end Sys2Proof.Machine
end

section
/-! Proofs of the statements of 43_bch.md: the remainder of GF(2) polynomials, the format and version strings as codewords,
and the commands BCHFMT and BCHVER. -/

namespace Sys2Proof.Machine

/-! The carry-less product (R11). -/

/-- Adding x^k to the first factor adds the second one, shifted by k, to the product. -/
theorem clmulBits_xor_two_pow (n a k b : Nat) :
    clmulBits n (a ^^^ 2 ^ k) b = clmulBits n a b ^^^ if k < n then b <<< k else 0 := by
  induction n with
  | zero => simp [clmulBits]
  | succ n ih =>
    rw [clmulBits, clmulBits, ih, Nat.testBit_xor, Nat.testBit_two_pow]
    obtain hlt | rfl | hgt := lt_trichotomy k n
    · simp [hlt, hlt.ne, Nat.lt_succ_of_lt hlt, Nat.xor_right_comm]
    · cases a.testBit k <;> simp
    · simp [hgt.ne', hgt.not_gt, Nat.not_le_of_gt hgt]

theorem clmulBits_of_lt {a n : Nat} (h : a < 2 ^ n) (b : Nat) : clmulBits n a b = clmul a b := by
  induction n, (bitlen_le_iff a n).mpr h using Nat.le_induction with
  | base => rfl
  | succ n hn ih =>
    have hlt : a < 2 ^ n := (bitlen_le_iff a n).mp hn
    simp [clmulBits, Nat.testBit_lt_two_pow hlt, ih hlt]

theorem clmul_xor_two_pow (a k b : Nat) : clmul (a ^^^ 2 ^ k) b = clmul a b ^^^ b <<< k := by
  have ha : a < 2 ^ (bitlen a + k + 1) := (bitlen_le_iff a _).mp (by omega)
  have hk : 2 ^ k < 2 ^ (bitlen a + k + 1) := Nat.pow_lt_pow_right (by decide) (by omega)
  rw [← clmulBits_of_lt (Nat.xor_lt_two_pow ha hk), clmulBits_xor_two_pow, clmulBits_of_lt ha, if_pos (by omega)]

theorem clmulBits_lt {g : Nat} (hg : g ≠ 0) (n a : Nat) : clmulBits n a g < 2 ^ (n + (bitlen g - 1)) := by
  induction n with
  | zero => exact Nat.two_pow_pos _
  | succ n ih =>
    have hpos := bitlen_pos hg
    have hexp : bitlen g + n = n + 1 + (bitlen g - 1) := by omega
    refine Nat.xor_lt_two_pow (ih.trans (Nat.pow_lt_pow_right (by decide) (by omega))) ?_
    split
    · exact hexp ▸ Nat.shiftLeft_lt (lt_two_pow_bitlen g)
    · exact Nat.two_pow_pos _

/-- The leading terms of nonzero factors multiply to the leading term of the product, so its degree is at least `g`'s. -/
theorem two_pow_le_clmul {q g : Nat} (hq : q ≠ 0) (hg : g ≠ 0) : 2 ^ (bitlen g - 1) ≤ clmul q g := by
  obtain ⟨n, hn⟩ := Nat.exists_eq_add_of_le' (bitlen_pos hq)
  have hlead : q.testBit n = true := by simpa [hn] using testBit_bitlen_sub_one hq
  have hprod : clmul q g = clmulBits n q g ^^^ g <<< n := by rw [clmul, hn, clmulBits, if_pos hlead]
  have htop : (clmul q g).testBit (n + (bitlen g - 1)) = true := by
    rw [hprod, Nat.testBit_xor, Nat.testBit_lt_two_pow (clmulBits_lt hg n q), Nat.testBit_shiftLeft]
    simp [testBit_bitlen_sub_one hg]
  exact (Nat.pow_le_pow_right (by decide) (by omega)).trans (Nat.ge_two_pow_of_testBit htop)

/-! The multiples of a divisor (R160): a round of the remainder stays among them, and none but 0 is shorter than `g`. -/

/-- `v` is a multiple of the GF(2) polynomial `g`. -/
def IsMultiple (g v : Nat) : Prop := ∃ q, v = clmul q g

theorem IsMultiple.zero (g : Nat) : IsMultiple g 0 := ⟨0, rfl⟩

theorem IsMultiple.xor_shifted {g v : Nat} (h : IsMultiple g v) (k : Nat) : IsMultiple g (v ^^^ g <<< k) := by
  obtain ⟨q, rfl⟩ := h
  exact ⟨q ^^^ 2 ^ k, (clmul_xor_two_pow q k g).symm⟩

theorem isMultiple_xor_shifted_iff (g v k : Nat) : IsMultiple g (v ^^^ g <<< k) ↔ IsMultiple g v :=
  ⟨fun h => Nat.xor_xor_cancel_right v (g <<< k) ▸ h.xor_shifted k, fun h => h.xor_shifted k⟩

theorem IsMultiple.eq_zero_of_lt {g v : Nat} (h : IsMultiple g v) (hg : g ≠ 0) (hv : v < 2 ^ (bitlen g - 1)) : v = 0 := by
  obtain ⟨q, rfl⟩ := h
  by_cases hq : q = 0
  · rw [hq]
    rfl
  · exact absurd (two_pow_le_clmul hq hg) hv.not_ge

/-- A dividend without its remainder is a multiple of the divisor. -/
theorem isMultiple_xor_bchrem (v g : Nat) : IsMultiple g (v ^^^ bchrem v g) := by
  have hround (r k : Nat) : IsMultiple g (v ^^^ (r ^^^ g <<< k)) = IsMultiple g (v ^^^ r) := by
    rw [← Nat.xor_assoc, isMultiple_xor_shifted_iff]
  rw [bchrem, bchLoop_keeps (f := fun r => IsMultiple g (v ^^^ r)) hround, Nat.xor_self]
  exact .zero g

theorem IsMultiple.bchrem_eq_zero {g v : Nat} (h : IsMultiple g v) (hg : g ≠ 0) : bchrem v g = 0 := by
  have hrem : IsMultiple g (bchrem v g) = IsMultiple g v :=
    bchLoop_keeps (fun r k => propext (isMultiple_xor_shifted_iff g r k)) _ _
  exact (hrem ▸ h).eq_zero_of_lt hg (bchrem_lt hg v)

/-- Settles O33: the bound, and the quotient of the multiple that the rounds took away. -/
theorem bchremIsTheRemainder : Obligations.BchremIsTheRemainder := by
  intro v g hg
  obtain ⟨q, hq⟩ := isMultiple_xor_bchrem v g
  exact ⟨bchrem_lt hg v, q, by rw [← hq, Nat.xor_xor_cancel_right]⟩

/-! Codewords (R161, R163, R165): data bits above, and below them the remainder that makes the whole a multiple. -/

theorem shiftLeft_add_eq_xor {n b : Nat} (d : Nat) (h : b < 2 ^ n) : d <<< n + b = d <<< n ^^^ b := by
  refine Nat.eq_of_testBit_eq fun j => ?_
  rw [Nat.testBit_xor, Nat.testBit_shiftLeft, Nat.shiftLeft_eq, Nat.mul_comm, Nat.testBit_two_pow_mul_add d h]
  by_cases hj : j < n
  · simp [hj, hj.not_ge]
  · have hb : b.testBit j = false := Nat.testBit_lt_two_pow (h.trans_le (Nat.pow_le_pow_right (by decide) (by omega)))
    simp [hj, Nat.le_of_not_lt hj, hb]

theorem shiftLeft_add_div {n b : Nat} (d : Nat) (h : b < 2 ^ n) : (d <<< n + b) / 2 ^ n = d := by
  rw [Nat.shiftLeft_eq, Nat.mul_comm, Nat.mul_add_div (Nat.two_pow_pos n), Nat.div_eq_of_lt h, Nat.add_zero]

/-- The systematic codeword of the data `d` under a divisor of degree `n`: its remainder is 0, and its high bits are `d`. -/
theorem bchrem_codeword {g n : Nat} (hg : g ≠ 0) (hn : bitlen g - 1 = n) (d : Nat) :
    bchrem (d <<< n + bchrem (d <<< n) g) g = 0 ∧ (d <<< n + bchrem (d <<< n) g) / 2 ^ n = d := by
  have hlt : bchrem (d <<< n) g < 2 ^ n := hn ▸ bchrem_lt hg _
  refine ⟨?_, shiftLeft_add_div d hlt⟩
  rw [shiftLeft_add_eq_xor d hlt]
  exact (isMultiple_xor_bchrem _ _).bchrem_eq_zero hg

theorem fmtstr_unmasked (c m : Nat) :
    bchrem (fmtstr c m ^^^ 0x5412) 0b10100110111 = 0 ∧ (fmtstr c m ^^^ 0x5412) / 2 ^ 10 = (c <<< 3) ||| m := by
  have h := bchrem_codeword (g := fmtGen) (n := 10) (by decide) (by decide) ((c <<< 3) ||| m)
  rwa [← Nat.xor_xor_cancel_right (_ + _) fmtMask] at h

theorem verstr_codeword (v : Nat) : bchrem (verstr v) 0b1111100100101 = 0 ∧ verstr v / 2 ^ 12 = v :=
  bchrem_codeword (g := verGen) (by decide) (by decide) v

/-- The data bits of a format string determine the ECL code and the mask index. -/
theorem fmtstr_inj {c m c' m' : Nat} (hm : m ≤ 7) (hm' : m' ≤ 7) (h : fmtstr c m = fmtstr c' m') : c = c' ∧ m = m' := by
  have hdata : c <<< 3 ||| m = c' <<< 3 ||| m' := by rw [← (fmtstr_unmasked c m).2, h, (fmtstr_unmasked c' m').2]
  rw [← Nat.shiftLeft_add_eq_or_of_lt (by omega), ← Nat.shiftLeft_add_eq_or_of_lt (by omega)] at hdata
  omega

/-- Settles O34: the strings are codewords, and the data they carry tells them apart. -/
theorem bchStringsAreCodewords : Obligations.BchStringsAreCodewords := by
  refine ⟨fun c m _ _ => fmtstr_unmasked c m, fun v _ _ => verstr_codeword v, fun c m c' m' _ hm _ hm' => fmtstr_inj hm hm',
    fun v v' _ _ _ _ h => ?_⟩
  rw [← (verstr_codeword v).2, h, (verstr_codeword v').2]

/-! The commands (R162, R164). -/

/-- The mask itself is no codeword, so it never masks a string to 0 (R162). -/
theorem fmtstr_ne_zero (c m : Nat) : fmtstr c m ≠ 0 := by
  intro h
  have hmask := (fmtstr_unmasked c m).1
  rw [h] at hmask
  exact absurd hmask (by decide)

/-- A version string of at most 6 data bits has 18 bits (R163). -/
theorem verstr_lt {v : Nat} (h : v < 2 ^ 6) : verstr v < 2 ^ 18 := by
  have hdata := (verstr_codeword v).2
  omega

theorem toNat_ofNat_of_lt {n w : Nat} (h : n < 2 ^ w) : (BitVec.ofNat w n).toNat = n := by
  rw [BitVec.toNat_ofNat, Nat.mod_eq_of_lt h]

theorem exec_bchfmt_range {s : State} (h : 3 < s.operands.opa.toNat ∨ 7 < s.operands.opb.toNat) :
    exec .bchfmt s = s.completeWith (.error .fmtRange) :=
  congrArg s.completeWith (if_pos h)

theorem exec_bchfmt_ok {s : State} (h : ¬ (3 < s.operands.opa.toNat ∨ 7 < s.operands.opb.toNat)) :
    exec .bchfmt s = s.completeWith (.ok (s.results.writeResult
      (BitVec.ofNat 18 (fmtstr s.operands.opa.toNat s.operands.opb.toNat)) 15#5)) :=
  congrArg s.completeWith (if_neg h)

/-- Settles O35: the check splits all operands, and RESULT has room for the 15 bits of the string. -/
theorem bchfmtWritesTheFormatString : Obligations.BchfmtWritesTheFormatString := by
  refine ⟨fun s hf ha hb => ?_, fun s _ h => ?_, rfl, by decide, by decide⟩
  · have hlt := fmtstr_lt _ (Nat.lt_succ_of_le ha) _ (Nat.lt_succ_of_le hb)
    have hval : (BitVec.ofNat 18 (fmtstr s.operands.opa.toNat s.operands.opb.toNat)).toNat =
        fmtstr s.operands.opa.toNat s.operands.opb.toNat := toNat_ofNat_of_lt (hlt.trans (by decide))
    refine ⟨_, ?_, hval, fun hzero => ?_, hval.trans_lt hlt⟩
    · rw [exec_bchfmt_ok (by omega), hf.completeWith_ok]
      rfl
    · rw [hzero] at hval
      exact fmtstr_ne_zero _ _ hval.symm
  · rw [exec_bchfmt_range h, completeWith_error]

theorem exec_bchver_range {s : State} (h : s.operands.opa.toNat = 0 ∨ 40 < s.operands.opa.toNat) :
    exec .bchver s = s.completeWith (.error .verRange) :=
  congrArg s.completeWith (if_pos h)

/-- OPA in range: BCHVER tells the versions without a string from those with one. -/
theorem exec_bchver_of_range {s : State} (h : ¬ (s.operands.opa.toNat = 0 ∨ 40 < s.operands.opa.toNat)) :
    exec .bchver s = s.completeWith (
      if s.operands.opa.toNat < 7 then .ok (s.results.writeResult 0#18 0#5)
      else .ok (s.results.writeResult (BitVec.ofNat 18 (verstr s.operands.opa.toNat)) 18#5)) :=
  congrArg s.completeWith (if_neg h)

/-- Settles O36: the two checks split all operands, and RESULT has room for the 18 bits of the string. -/
theorem bchverWritesTheVersionString : Obligations.BchverWritesTheVersionString := by
  refine ⟨fun s hf h7 h40 => ?_, fun s hf h1 h6 => ?_, fun s _ h => ?_, rfl, by decide⟩
  · refine ⟨BitVec.ofNat 18 (verstr s.operands.opa.toNat), ?_, toNat_ofNat_of_lt (verstr_lt (by omega))⟩
    rw [exec_bchver_of_range (by omega), if_neg (by omega), hf.completeWith_ok]
    rfl
  · rw [exec_bchver_of_range (by omega), if_pos (by omega), hf.completeWith_ok]
    rfl
  · rw [exec_bchver_range h, completeWith_error]

end Sys2Proof.Machine
end

section
/-! Proofs of the statements of 60_exceptions.md: error completions, which errors there are and in which order, how an error
is acknowledged, and that no step stops. -/

namespace Sys2Proof.Machine

/-! Which errors a command raises (R182). -/

/-- The completion `r` of a command (R102) raises only an error that R182 lists for it. -/
def RaisesListed (i : Instr) : Except ErrCode Results → Prop
  | .ok _ => True
  | .error c => c ∈ errorsOf i

/-- A check whose error is listed, followed by a completion that raises only listed errors. -/
theorem RaisesListed.check {i : Instr} {p : Prop} [Decidable p] {c : ErrCode} {r : Except ErrCode Results}
    (hc : c ∈ errorsOf i) (hr : RaisesListed i r) : RaisesListed i (if p then .error c else r) :=
  iteInduction (fun _ => hc) fun _ => hr

/-- Every check of a command raises an error of the command's row in R182. -/
theorem exec_raises_listed (i : Instr) (s : State) : ∃ r, exec i s = s.completeWith r ∧ RaisesListed i r := by
  cases i with
  | nop => exact ⟨.ok _, rfl, trivial⟩
  | gfmul => exact ⟨.ok _, rfl, trivial⟩
  | gf2mul => exact ⟨.ok _, rfl, trivial⟩
  | gflog => exact ⟨_, rfl, .check (by decide) trivial⟩
  | gfexp => exact ⟨.ok _, rfl, trivial⟩
  | rsgen => exact ⟨_, rfl, .check (by decide) trivial⟩
  | rsrem => exact ⟨_, rfl, .check (by decide) (.check (by decide) (.check (by decide) trivial))⟩
  | bchfmt => exact ⟨_, rfl, .check (by decide) trivial⟩
  | bchver => exact ⟨_, rfl, .check (by decide) (iteInduction (fun _ => trivial) fun _ => trivial)⟩

/-- No row of R182 lists code 0. -/
theorem noError_notMem_errorsOf (i : Instr) : .noError ∉ errorsOf i := by
  cases i <;> decide

/-- A command in flight that ends with ERR = 1 took a listed error; no error stood before it (R182, R184). -/
theorem exec_error_cases {i : Instr} {s t : State} (hf : InFlight s) (h : exec i s = .next t)
    (herr : t.status.err = true) :
    ∃ c ∈ errorsOf i, t = { s with status := s.status.errAfter c } := by
  obtain ⟨r, hr, hlisted⟩ := exec_raises_listed i s
  obtain ⟨res, -, rfl⟩ | ⟨c, rfl, rfl⟩ := completeWith_next.mp (hr ▸ h)
  · have hok : s.status.err = true := herr
    simp [hf.no_error.1] at hok
  · exact ⟨c, hlisted, rfl⟩

/-! Error completion (R184). -/

theorem Status.errAfter_word_toNat (st : Status) (c : ErrCode) :
    (st.errAfter c).word.toNat = 0x6 ||| (c.bits.toNat <<< 8) ||| ((if st.wbusy then 1 else 0) <<< 3) := by
  rw [statusWordHasItsFields.1, Status.errAfter]
  cases st.wbusy <;> cases c <;> rfl

/-- With BUSY = 0 the unit accepts any command word (R100). -/
theorem access_write_cmd_accepted {s : State} (hb : s.status.busy = false) (w : Word) :
    (s.access (wordWrite 0x008#12 w)).status.busy = true ∧ (s.access (wordWrite 0x008#12 w)).lcmd = w := by
  rw [access_write_cmd hb, State.issue_status, State.issue_lcmd]
  exact ⟨rfl, rfl⟩

/-- Settles O10: the completion is a listed error's, and it clears BUSY. -/
theorem errorCompletionWritesOnlyStatus : Obligations.ErrorCompletionWritesOnlyStatus := by
  intro i s t hf h herr
  obtain ⟨c, hc, rfl⟩ := exec_error_cases hf h herr
  exact ⟨rfl, ne_of_mem_of_not_mem hc (noError_notMem_errorsOf i), s.status.errAfter_word_toNat c, access_write_cmd_accepted rfl⟩

/-- No access sets ERR: a STATUS write and an issue can only clear it (R26, R100, R182). -/
theorem err_of_access_err {s : State} {a : Access} (h : (s.access a).status.err = true) : s.status.err = true := by
  obtain ⟨n, ha⟩ | ⟨w, ha⟩ := access_cases s a
  · rwa [ha] at h
  · rw [ha] at h
    obtain hw | ⟨-, hw⟩ | ⟨-, hw⟩ | hw | hw | ⟨-, o, hw⟩ := writeWord_cases s a.offset w <;> rw [hw] at h
    · exact h
    · exact h
    · rw [State.issue_status] at h
      cases h
    · exact (Bool.and_eq_true_iff.mp h).1
    · exact h
    · exact h

theorem step_of_no_row {s : State} (hu : s.unitTurn = true) (hl : ∀ i, s.lcmd ≠ encode i) :
    step s = .next { s with status := s.status.errAfter .illegalOp } := by
  obtain ⟨r, hd⟩ := decode_error_of_no_row hl
  exact step_of_illegal hu hd

/-- Settles O11: by the commands' checks, the decoder's rejection, and what an access does to ERR. -/
theorem commandsRaiseOnlyTheirErrors : Obligations.CommandsRaiseOnlyTheirErrors := by
  refine ⟨fun i s t hf h herr => ?_, fun s t hu hl h => ?_, fun s a => err_of_access_err⟩
  · obtain ⟨c, hc, rfl⟩ := exec_error_cases hf h herr
    exact hc
  · rw [step_of_no_row hu hl] at h
    cases h
    exact ⟨rfl, rfl⟩

/-! Priority (R183). -/

/-- Settles O31: the decoder comes before every check, and RSREM's checks come in the order of R183. -/
theorem errorPriorityIsFixed : Obligations.ErrorPriorityIsFixed := by
  refine ⟨fun s _ hu hl => step_of_no_row hu hl, fun s _ hecc => ?_, fun s _ hecc hlen => ?_,
    fun s _ hecc hlen hdeg => ?_⟩
  · rw [exec_rsrem_ecc_range hecc, completeWith_error]
  · rw [exec_rsrem_len_range hecc hlen, completeWith_error]
  · rw [exec_rsrem_no_gen hecc hlen hdeg, completeWith_error]

/-! Acknowledgement (R186). -/

/-- An issue leaves no trace of the flags it overwrites. -/
theorem issue_of_status {s : State} {st : Status} (h : st.issue = s.status.issue) (w : Word) :
    State.issue { s with status := st } w = s.issue w := by
  unfold State.issue State.issueAfter
  rw [h]

/-- Settles O47: a STATUS write is `Status.clear`, and an issue overwrites DONE, ERR and ERRCODE. -/
theorem errorsAreAcknowledged : Obligations.ErrorsAreAcknowledged := by
  refine ⟨fun s w h1 => ?_, fun s w hb => ?_, fun s i c w hb => ?_⟩
  · rw [access_write_status]
    exact s.status.clear_of_bit1_set h1
  · rw [access_write_cmd hb, State.issue_status]
    exact ⟨rfl, rfl, rfl⟩
  · rw [access_write_cmd hb, access_write_cmd (by exact hb)]
    exact congrArg (exec i) (issue_of_status rfl w).symm

/-! No traps (R53, R180). -/

/-- Settles O55: the host's undefined label is the only stop of a step, and no step writes the host program. -/
theorem stepsNeverStop : Obligations.StepsNeverStop := by
  intro s hl
  obtain ⟨t, ht⟩ := step_answers hl
  exact ⟨t, ht, step_keeps_prog ht⟩

end Sys2Proof.Machine
end

section
/-! Proofs of the statements of 70_reset_and_hazards.md: what a reset sets, and what RSREM finds after it. -/

namespace Sys2Proof.Machine

/-! Reset (R45, R210). -/

theorem Status.reset_word : Status.reset.word = 0#32 := by decide

/-- The register values of R45, whatever the schedule and the host agent that the reset leaves in place. -/
theorem State.afterReset_registers (sched : Schedule) (host : HostAgent) :
    let t := State.afterReset sched host
    t.status.word = 0#32 ∧ t.ie = false ∧ t.irq = false ∧ t.operands.opa = 0#8 ∧ t.operands.opb = 0#8 ∧
    t.operands.ecc = 0#8 ∧ t.operands.len = 0#9 ∧ t.results.result = 0#18 ∧ t.results.rlen = 0#5 ∧
    t.results.genDeg = 0#8 ∧ t.results.remCnt = 0#8 :=
  ⟨Status.reset_word, rfl, rfl, rfl, rfl, rfl, rfl, rfl, rfl, rfl, rfl⟩

theorem hostStmt_rst (s : State) : s.hostStmt .rst = .next (State.afterReset s.sched s.host.advance) := rfl

/-- Off the unit's turn `rst` is one step, whatever command is in flight. -/
theorem step_rst {s : State} (hu : s.unitTurn = false) (hst : s.host.prog[s.host.pc]? = some .rst) :
    step s = .next (State.afterReset s.tick.sched s.host.advance) := by
  rw [step_statement hu hst, hostStmt_rst, State.tick_host]

/-- Settles O49: both the `rst` step and `State.reset` are an `afterReset`. -/
theorem resetSetsEveryRegister : Obligations.ResetSetsEveryRegister := by
  refine ⟨fun s hu hst => ⟨_, step_rst hu hst, ?_⟩, State.afterReset_registers _ _⟩
  obtain ⟨hword, hie, hirq, hopa, hopb, hecc, hlen, hresult, hrlen, hdeg, hcnt⟩ :=
    State.afterReset_registers s.tick.sched s.host.advance
  exact ⟨hword, hie, hirq, hopa, hopb, hecc, hlen, hresult, hrlen, hdeg, hcnt, rfl⟩

/-! RSREM after a reset (R213). -/

/-- A reset leaves GEN_DEG 0, which names no generator that an ECC in range could ask for. -/
theorem genDeg_ne_ecc_of_reset {s₀ s : State} (h : s.results = s₀.resetUnit.results) (h1 : 1 ≤ s.operands.ecc.toNat) :
    s.results.genDeg ≠ s.operands.ecc := by
  have hdeg : s.results.genDeg = 0#8 := congrArg Results.genDeg h
  intro heq
  rw [← heq, hdeg] at h1
  exact absurd h1 (by decide)

/-- Settles O32: ECC and LEN pass their checks, and GEN_DEG = 0 fails the last one. -/
theorem rsremAfterResetRaisesNoGen : Obligations.RsremAfterResetRaisesNoGen := by
  intro s₀ s hreset _ h1 h30 hl1 hl256
  have hdeg : s.results.genDeg ≠ s.operands.ecc := genDeg_ne_ecc_of_reset hreset h1
  rw [exec_rsrem_no_gen (by omega) (by omega) hdeg, completeWith_error]

end Sys2Proof.Machine
end
